-- ==== Sys2Proof/Word.lean ====
section
/-! DEFINITION. The word types of the JIF-LZW decode block: every quantity is unsigned (00_scope.md R11). -/

namespace Sys2Proof

/-- An 8-bit value: an input byte, a palette index, a stack symbol, a suffix (R42, R36, R39, R37). -/
abbrev Byte := BitVec 8

/-- A 32-bit value: a host-visible register, a frame-memory address, a pixel word (R20, R63, R91). -/
abbrev Word := BitVec 32

/-- A code as the reader delivers it, zero-extended to 12 bits (R160: a code is below 4096). -/
abbrev Code := BitVec 12

/-- A palette entry: R in 23:16, G in 15:8, B in 7:0 (R36, R92). -/
abbrev Rgb := BitVec 24

/-- A host operation word: bit 40 `W`, bits 39:32 `OFF`, bits 31:0 `DATA` (R88). -/
abbrev HostWord := BitVec 41

/-- The bit buffer `acc`, as wide as it can ever need to be: `BITBUF_CAP` = 2051 bits (R42, R154). -/
abbrev BitBuffer := BitVec 2051

end Sys2Proof
end

