-- ==== Sys2Proof/Config.lean ====
section
/-! DEFINITION. What an implementation fixes: the fixed parameters of R9, the open parameters of R10, and the
free values, each an uninterpreted constant, so that no proof can see a value of it. -/

namespace Sys2Proof.Config

/-- `TABLE_SIZE` (R9): entries of the prefix/suffix table, 12-bit code space. -/
abbrev tableSize : Nat := 4096

/-- `STACK_DEPTH` (R9, R39): symbols the output stack holds. -/
abbrev stackDepth : Nat := 4096

/-- `ROOT_MIN` (R9, R82). -/
abbrev rootMin : Nat := 2

/-- `ROOT_MAX` (R9, R82). -/
abbrev rootMax : Nat := 8

/-- `MIN_CODE_WIDTH` (R9, R160). -/
abbrev minCodeWidth : Nat := 3

/-- `MAX_CODE_WIDTH` (R9, R160, R197). -/
abbrev maxCodeWidth : Nat := 12

/-- `BITBUF_CAP` (R9, R154): the most bits the reader ever buffers. -/
abbrev bitBufCap : Nat := 2051

/-- `REG_BASE` (R10, I4): the platform address of the register window, an open parameter. -/
opaque regBase : Word

/-- `PAL_INIT` (R10, R45, I3): the contents of the palette RAM after reset, an open parameter. -/
opaque palInit : Byte → Rgb

/-- FREE VALUE (R45, I7): what the table RAM holds in a slot that nothing has written, prefix in bits 19:8 and
suffix in bits 7:0. The first argument counts the resets, since each leaves unspecified contents of its own. -/
opaque tableInit : Nat → Nat → BitVec 20

/-- FREE VALUE (R242, R248): what a byte of frame memory holds before the block first writes it, by address. -/
opaque frameInit : Nat → Byte

/-- FREE VALUE (R70, I6): the byte that the n-th host read inside the footprint of a running frame returns. -/
opaque frameDraw : Nat → Byte

end Sys2Proof.Config
end

