-- ==== Sys2Proof/Syntax.lean ====
section
/-! DEFINITION. The instructions of the block: one constructor per row of spec/opcode_table.json (R96), that is the seven
code classes (R85), the four stream tokens (R81, R82) and the 36 host operations (R88). -/

namespace Sys2Proof

/-- The rows of the opcode table. A `CODE` row carries the code value, a `SUBBLOCK.DATA` row its length byte, a `ROOT` row
the root byte. A `HOSTOP` row carries `lo`, the ignored bits 33:32 of its word (R61, R88), and `data`, its bits 31:0; the
rows of a range of reserved offsets also carry the offset bits that tell the words of the range apart. -/
inductive Instr where
  /-- `CLEAR` (R186). -/
  | clear
  /-- `END` (R187). -/
  | endCode
  /-- `FIRST` (R188): code `c`. -/
  | first (c : Code)
  /-- `BAD_FIRST` (R189): code `c`. -/
  | badFirst (c : Code)
  /-- `LITERAL` (R190): code `c`. -/
  | literal (c : Code)
  /-- `DEFINED` (R191): code `c`. -/
  | defined (c : Code)
  /-- `KWKWK` (R192): code `c`. -/
  | kwkwk (c : Code)
  /-- `SUBBLOCK.TERMINATOR` (R81): the length byte 0. -/
  | subTerminator
  /-- `SUBBLOCK.DATA` (R81): the length byte `n`; `n` payload bytes follow. -/
  | subData (n : Byte)
  /-- `ROOT.VALID` (R82): the root byte `r`. -/
  | rootValid (r : Byte)
  /-- `ROOT.INVALID` (R232): the root byte `r`. -/
  | rootInvalid (r : Byte)
  /-- `RD_ID` (R127). -/
  | rdId (lo : BitVec 2) (data : Word)
  /-- `RD_CTRL` (R127). -/
  | rdCtrl (lo : BitVec 2) (data : Word)
  /-- `RD_STATUS` (R126). -/
  | rdStatus (lo : BitVec 2) (data : Word)
  /-- `RD_IRQ_EN` (R128). -/
  | rdIrqEn (lo : BitVec 2) (data : Word)
  /-- `RD_FRAME_W` (R128). -/
  | rdFrameW (lo : BitVec 2) (data : Word)
  /-- `RD_FRAME_H` (R128). -/
  | rdFrameH (lo : BitVec 2) (data : Word)
  /-- `RD_FRAME_CFG` (R128). -/
  | rdFrameCfg (lo : BitVec 2) (data : Word)
  /-- `RD_FB_BASE` (R128). -/
  | rdFbBase (lo : BitVec 2) (data : Word)
  /-- `RD_PAL_INDEX` (R128). -/
  | rdPalIndex (lo : BitVec 2) (data : Word)
  /-- `RD_PAL_DATA` (R124). -/
  | rdPalData (lo : BitVec 2) (data : Word)
  /-- `RD_PIX_COUNT` (R127). -/
  | rdPixCount (lo : BitVec 2) (data : Word)
  /-- `RD_LZW_STATE` (R127). -/
  | rdLzwState (lo : BitVec 2) (data : Word)
  /-- `RD_BYTES_IN` (R127). -/
  | rdBytesIn (lo : BitVec 2) (data : Word)
  /-- `RD_reserved_0x34` (R111). -/
  | rdReserved34 (lo : BitVec 2) (data : Word)
  /-- `RD_reserved_0x38..0x3C` (R111): `sel` is bit 2 of the offset. -/
  | rdReserved38 (sel : BitVec 1) (lo : BitVec 2) (data : Word)
  /-- `RD_reserved_0x40..0x7C` (R111): `sel` is bits 5:2 of the offset. -/
  | rdReserved40 (sel : BitVec 4) (lo : BitVec 2) (data : Word)
  /-- `RD_reserved_0x80..0xFC` (R111): `sel` is bits 6:2 of the offset. -/
  | rdReserved80 (sel : BitVec 5) (lo : BitVec 2) (data : Word)
  /-- `WR_ID` (R112). -/
  | wrId (lo : BitVec 2) (data : Word)
  /-- `WR_CTRL.NONE` (R89): bits 1:0 of `data` are 00. -/
  | wrCtrlNone (lo : BitVec 2) (data : Word)
  /-- `WR_CTRL.ABORT` (R116): bit 1 of `data` is 1; bit 0 may be too, and then START follows (R89). -/
  | wrCtrlAbort (lo : BitVec 2) (data : Word)
  /-- `WR_CTRL.START` (R113, R114): bit 0 of `data` is 1 and bit 1 is 0. -/
  | wrCtrlStart (lo : BitVec 2) (data : Word)
  /-- `WR_STATUS` (R117). -/
  | wrStatus (lo : BitVec 2) (data : Word)
  /-- `WR_IRQ_EN` (R118). -/
  | wrIrqEn (lo : BitVec 2) (data : Word)
  /-- `WR_FRAME_W` (R119). -/
  | wrFrameW (lo : BitVec 2) (data : Word)
  /-- `WR_FRAME_H` (R120). -/
  | wrFrameH (lo : BitVec 2) (data : Word)
  /-- `WR_FRAME_CFG` (R121). -/
  | wrFrameCfg (lo : BitVec 2) (data : Word)
  /-- `WR_FB_BASE` (R122). -/
  | wrFbBase (lo : BitVec 2) (data : Word)
  /-- `WR_PAL_INDEX` (R125). -/
  | wrPalIndex (lo : BitVec 2) (data : Word)
  /-- `WR_PAL_DATA` (R123). -/
  | wrPalData (lo : BitVec 2) (data : Word)
  /-- `WR_PIX_COUNT` (R112). -/
  | wrPixCount (lo : BitVec 2) (data : Word)
  /-- `WR_LZW_STATE` (R112). -/
  | wrLzwState (lo : BitVec 2) (data : Word)
  /-- `WR_BYTES_IN` (R112). -/
  | wrBytesIn (lo : BitVec 2) (data : Word)
  /-- `WR_reserved_0x34` (R112). -/
  | wrReserved34 (lo : BitVec 2) (data : Word)
  /-- `WR_reserved_0x38..0x3C` (R112): `sel` is bit 2 of the offset. -/
  | wrReserved38 (sel : BitVec 1) (lo : BitVec 2) (data : Word)
  /-- `WR_reserved_0x40..0x7C` (R112): `sel` is bits 5:2 of the offset. -/
  | wrReserved40 (sel : BitVec 4) (lo : BitVec 2) (data : Word)
  /-- `WR_reserved_0x80..0xFC` (R112): `sel` is bits 6:2 of the offset. -/
  | wrReserved80 (sel : BitVec 5) (lo : BitVec 2) (data : Word)
  deriving DecidableEq, Repr

/-- The decoder state that a code's class depends on (R85). -/
structure CodeContext where
  clearCode : BitVec 13
  endCode : BitVec 13
  maxCode : BitVec 13
  fresh : Bool
  deriving DecidableEq, Repr

/-- An instruction as it stands in its stream: a code of the data (R83), a sub-block's length byte (R81), the root
byte (R82) or a host operation word (R88). -/
inductive Token where
  | code (c : Code)
  | sub (n : Byte)
  | root (r : Byte)
  | host (w : HostWord)
  deriving DecidableEq, Repr

/-- The seven classes of a code value (R85). -/
inductive CodeClass where
  | clear
  | endOfImage
  | first
  | badFirst
  | literal
  | defined
  | kwkwk
  deriving DecidableEq, Repr

end Sys2Proof
end

