-- ==== Sys2Proof/WellFormed.lean ====
section
/-! DEFINITION. Which instruction terms an encoding admits: the `condition` of each row of spec/opcode_table.json. -/

namespace Sys2Proof

/-- A decoder state in which R85's classes are disjoint and exhaustive: `clearCode` is a power of two of R87, `endCode`
follows it, `maxCode` lies in its range (R201), and while `fresh` it is `clearCode + 2` (R85). -/
def CodeContext.legal (k : CodeContext) : Bool :=
  decide (k.clearCode.toNat ∈ [4, 8, 16, 32, 64, 128, 256])
    && decide (k.endCode.toNat = k.clearCode.toNat + 1)
    && decide (k.clearCode.toNat + 2 ≤ k.maxCode.toNat)
    && decide (k.maxCode.toNat ≤ Config.tableSize)
    && (!k.fresh || decide (k.maxCode.toNat = k.clearCode.toNat + 2))

/-- The condition of the instruction's row, in decoder state `k`. Host operations and bytes do not read `k`. -/
def Instr.wf (k : CodeContext) : Instr → Bool
  | .clear | .endCode => true
  | .first c => k.fresh && decide (c.toNat < k.clearCode.toNat)
  | .badFirst c => k.fresh && decide (k.clearCode.toNat + 2 ≤ c.toNat)
  | .literal c => !k.fresh && decide (c.toNat < k.clearCode.toNat)
  | .defined c => !k.fresh && decide (k.clearCode.toNat + 2 ≤ c.toNat) && decide (c.toNat < k.maxCode.toNat)
  | .kwkwk c => !k.fresh && decide (k.maxCode.toNat ≤ c.toNat)
  | .subTerminator => true
  | .subData n => decide (n ≠ 0)
  | .rootValid r => decide (Config.rootMin ≤ r.toNat) && decide (r.toNat ≤ Config.rootMax)
  | .rootInvalid r => decide (r.toNat < Config.rootMin) || decide (Config.rootMax < r.toNat)
  | .wrCtrlNone _ data => !data.getLsbD 0 && !data.getLsbD 1
  | .wrCtrlAbort _ data => data.getLsbD 1
  | .wrCtrlStart _ data => data.getLsbD 0 && !data.getLsbD 1
  | .rdId _ _ | .rdCtrl _ _ | .rdStatus _ _ | .rdIrqEn _ _ | .rdFrameW _ _ | .rdFrameH _ _ | .rdFrameCfg _ _
  | .rdFbBase _ _ | .rdPalIndex _ _ | .rdPalData _ _ | .rdPixCount _ _ | .rdLzwState _ _ | .rdBytesIn _ _
  | .rdReserved34 _ _ | .rdReserved38 _ _ _ | .rdReserved40 _ _ _ | .rdReserved80 _ _ _
  | .wrId _ _ | .wrStatus _ _ | .wrIrqEn _ _ | .wrFrameW _ _ | .wrFrameH _ _ | .wrFrameCfg _ _ | .wrFbBase _ _
  | .wrPalIndex _ _ | .wrPalData _ _ | .wrPixCount _ _ | .wrLzwState _ _ | .wrBytesIn _ _
  | .wrReserved34 _ _ | .wrReserved38 _ _ _ | .wrReserved40 _ _ _ | .wrReserved80 _ _ _ => true

end Sys2Proof
end

