-- ==== Sys2Proof/Decode.lean ====
section
/-! DEFINITION. The decoder, from the tokens of R81, R82, R83 and R88 to instructions, and after it the encoder, each
written from 30_encoding.md and the match and mask columns of spec/opcode_table.json. -/

namespace Sys2Proof

/-- The class of code value `c` (R85), tested in the order of R86: CLEAR, END, then `fresh`, then the magnitude. -/
def classify (k : CodeContext) (c : Code) : CodeClass :=
  if c.toNat = k.clearCode.toNat then .clear
  else if c.toNat = k.endCode.toNat then .endOfImage
  else if k.fresh then
    if c.toNat < k.clearCode.toNat then .first else .badFirst
  else if c.toNat < k.clearCode.toNat then .literal
  else if c.toNat < k.maxCode.toNat then .defined
  else .kwkwk

/-- A code of the data as an instruction (R85). -/
def decodeCode (k : CodeContext) (c : Code) : Instr :=
  match classify k c with
  | .clear => .clear
  | .endOfImage => .endCode
  | .first => .first c
  | .badFirst => .badFirst c
  | .literal => .literal c
  | .defined => .defined c
  | .kwkwk => .kwkwk c

/-- A sub-block's length byte (R81): 0 is the terminator, every other value a data sub-block. -/
def decodeSub (n : Byte) : Instr :=
  if n = 0 then .subTerminator else .subData n

/-- The root byte (R82): 2..8 are valid. -/
def decodeRoot (r : Byte) : Instr :=
  if Config.rootMin ≤ r.toNat ∧ r.toNat ≤ Config.rootMax then .rootValid r else .rootInvalid r

/-- A register read at word `idx` of the window (R111, R34). -/
def decodeRead (idx : BitVec 6) (lo : BitVec 2) (data : Word) : Instr :=
  match idx.toNat with
  | 0 => .rdId lo data
  | 1 => .rdCtrl lo data
  | 2 => .rdStatus lo data
  | 3 => .rdIrqEn lo data
  | 4 => .rdFrameW lo data
  | 5 => .rdFrameH lo data
  | 6 => .rdFrameCfg lo data
  | 7 => .rdFbBase lo data
  | 8 => .rdPalIndex lo data
  | 9 => .rdPalData lo data
  | 10 => .rdPixCount lo data
  | 11 => .rdLzwState lo data
  | 12 => .rdBytesIn lo data
  | 13 => .rdReserved34 lo data
  | n =>
    if n < 16 then .rdReserved38 (idx.extractLsb' 0 1) lo data
    else if n < 32 then .rdReserved40 (idx.extractLsb' 0 4) lo data
    else .rdReserved80 (idx.extractLsb' 0 5) lo data

/-- A write of `CTRL` (R89): with bit 1 set the ABORT row acts first, so it takes the words with both bits set. -/
def decodeCtrl (lo : BitVec 2) (data : Word) : Instr :=
  if data.getLsbD 1 then .wrCtrlAbort lo data
  else if data.getLsbD 0 then .wrCtrlStart lo data
  else .wrCtrlNone lo data

/-- A register write at word `idx` of the window (R112 to R125). -/
def decodeWrite (idx : BitVec 6) (lo : BitVec 2) (data : Word) : Instr :=
  match idx.toNat with
  | 0 => .wrId lo data
  | 1 => decodeCtrl lo data
  | 2 => .wrStatus lo data
  | 3 => .wrIrqEn lo data
  | 4 => .wrFrameW lo data
  | 5 => .wrFrameH lo data
  | 6 => .wrFrameCfg lo data
  | 7 => .wrFbBase lo data
  | 8 => .wrPalIndex lo data
  | 9 => .wrPalData lo data
  | 10 => .wrPixCount lo data
  | 11 => .wrLzwState lo data
  | 12 => .wrBytesIn lo data
  | 13 => .wrReserved34 lo data
  | n =>
    if n < 16 then .wrReserved38 (idx.extractLsb' 0 1) lo data
    else if n < 32 then .wrReserved40 (idx.extractLsb' 0 4) lo data
    else .wrReserved80 (idx.extractLsb' 0 5) lo data

/-- A host operation word (R88). Every word has a meaning (R95). -/
def decodeHost (w : HostWord) : Instr :=
  if w.getLsbD 40 then decodeWrite (w.extractLsb' 34 6) (w.extractLsb' 32 2) (w.extractLsb' 0 32)
  else decodeRead (w.extractLsb' 34 6) (w.extractLsb' 32 2) (w.extractLsb' 0 32)

/-- The decoder. It is total: R81, R82, R85 and R95 give every token a meaning. -/
def decode (k : CodeContext) : Token → Instr
  | .code c => decodeCode k c
  | .sub n => decodeSub n
  | .root r => decodeRoot r
  | .host w => decodeHost w

/-- Why a bare number of bits is no token of the block. -/
inductive DecodeError where
  /-- No format of the opcode table has this number of bits. -/
  | noFormat (nbits : Nat)
  /-- The number does not fit the format's bits. -/
  | bitsAbove (nbits w : Nat)
  deriving DecidableEq, Repr

/-- The decoder state in which a bare code word is read (log 9): root code size 2, one entry in the table, not fresh. -/
def tableContext : CodeContext := { clearCode := 4, endCode := 5, maxCode := 7, fresh := false }

/-- A bare word of `nbits` bits, as spec/opcode_table.json numbers it: 8 bits are a sub-block's length byte, 12 (in whole
bytes 16) a code in `tableContext`, 41 (in whole bytes 48) a host operation word (log 9). -/
def decodeWord (nbits w : Nat) : Except DecodeError Instr :=
  if nbits = 8 then
    if w < 2 ^ 8 then .ok (decode tableContext (.sub (BitVec.ofNat 8 w))) else .error (.bitsAbove nbits w)
  else if nbits = 12 ∨ nbits = 16 then
    if w < 2 ^ 12 then .ok (decode tableContext (.code (BitVec.ofNat 12 w))) else .error (.bitsAbove nbits w)
  else if 41 ≤ nbits ∧ nbits ≤ 48 then
    if w < 2 ^ 41 then .ok (decode tableContext (.host (BitVec.ofNat 41 w))) else .error (.bitsAbove nbits w)
  else .error (.noFormat nbits)

/-- The instruction the decoder reads from a word of the opcode table, `none` where it refuses. -/
def decodeTableWord (nbits w : Nat) : Option Instr :=
  match decodeWord nbits w with
  | .ok i => some i
  | .error _ => none

/-- A host operation word from its parts (R88): `W`, `OFF[7:2]`, `OFF[1:0]`, `DATA`. -/
def hostWord (write : BitVec 1) (idx : BitVec 6) (lo : BitVec 2) (data : Word) : HostWord :=
  write ++ idx ++ lo ++ data

/-- The encoder: the token an instruction stands for in decoder state `k`. -/
def encode (k : CodeContext) : Instr → Token
  | .clear => .code (k.clearCode.setWidth 12)
  | .endCode => .code (k.endCode.setWidth 12)
  | .first c => .code c
  | .badFirst c => .code c
  | .literal c => .code c
  | .defined c => .code c
  | .kwkwk c => .code c
  | .subTerminator => .sub 0
  | .subData n => .sub n
  | .rootValid r => .root r
  | .rootInvalid r => .root r
  | .rdId lo data => .host (hostWord 0 0 lo data)
  | .rdCtrl lo data => .host (hostWord 0 1 lo data)
  | .rdStatus lo data => .host (hostWord 0 2 lo data)
  | .rdIrqEn lo data => .host (hostWord 0 3 lo data)
  | .rdFrameW lo data => .host (hostWord 0 4 lo data)
  | .rdFrameH lo data => .host (hostWord 0 5 lo data)
  | .rdFrameCfg lo data => .host (hostWord 0 6 lo data)
  | .rdFbBase lo data => .host (hostWord 0 7 lo data)
  | .rdPalIndex lo data => .host (hostWord 0 8 lo data)
  | .rdPalData lo data => .host (hostWord 0 9 lo data)
  | .rdPixCount lo data => .host (hostWord 0 10 lo data)
  | .rdLzwState lo data => .host (hostWord 0 11 lo data)
  | .rdBytesIn lo data => .host (hostWord 0 12 lo data)
  | .rdReserved34 lo data => .host (hostWord 0 13 lo data)
  | .rdReserved38 sel lo data => .host (hostWord 0 (7#5 ++ sel) lo data)
  | .rdReserved40 sel lo data => .host (hostWord 0 (1#2 ++ sel) lo data)
  | .rdReserved80 sel lo data => .host (hostWord 0 (1#1 ++ sel) lo data)
  | .wrId lo data => .host (hostWord 1 0 lo data)
  | .wrCtrlNone lo data => .host (hostWord 1 1 lo data)
  | .wrCtrlAbort lo data => .host (hostWord 1 1 lo data)
  | .wrCtrlStart lo data => .host (hostWord 1 1 lo data)
  | .wrStatus lo data => .host (hostWord 1 2 lo data)
  | .wrIrqEn lo data => .host (hostWord 1 3 lo data)
  | .wrFrameW lo data => .host (hostWord 1 4 lo data)
  | .wrFrameH lo data => .host (hostWord 1 5 lo data)
  | .wrFrameCfg lo data => .host (hostWord 1 6 lo data)
  | .wrFbBase lo data => .host (hostWord 1 7 lo data)
  | .wrPalIndex lo data => .host (hostWord 1 8 lo data)
  | .wrPalData lo data => .host (hostWord 1 9 lo data)
  | .wrPixCount lo data => .host (hostWord 1 10 lo data)
  | .wrLzwState lo data => .host (hostWord 1 11 lo data)
  | .wrBytesIn lo data => .host (hostWord 1 12 lo data)
  | .wrReserved34 lo data => .host (hostWord 1 13 lo data)
  | .wrReserved38 sel lo data => .host (hostWord 1 (7#5 ++ sel) lo data)
  | .wrReserved40 sel lo data => .host (hostWord 1 (1#2 ++ sel) lo data)
  | .wrReserved80 sel lo data => .host (hostWord 1 (1#1 ++ sel) lo data)

end Sys2Proof
end

