-- ==== Sys2Proof/Machine/State.lean ====
section
/-! DEFINITION. The state of the block as plain data (10_state.md), the ports it stands behind, the schedule of the
interleaving, the reset state (R45), and the reasons a step can stop. -/

namespace Sys2Proof.Machine

/-- The sequencer phase (R40). -/
inductive Phase where
  | idle
  | root
  | fill
  | tail
  | drain
  deriving DecidableEq, Repr

/-- The completion causes of R271. Codes 10 to 15 are never produced, so they have no constructor (I10). -/
inductive Cause where
  | ok
  | shortData
  | badRoot
  | badTerminator
  | lzwSelfPrefix
  | lzwUndefinedCode
  | lzwStackOverflow
  | lzwBadFirstCode
  | inputEof
  | aborted
  deriving DecidableEq, Repr

/-- `lzwDone`, the sticky result of the LZW unit (R38, R202). -/
inductive LzwResult where
  | none
  | endOfData
  | corrupt (c : Cause)
  deriving DecidableEq, Repr

/-- The fields of the register `LZW_STATE` (R32). -/
structure LzwView where
  codeSize : BitVec 4
  maxCode : BitVec 13
  fresh : Bool
  rootByte : Byte
  deriving DecidableEq, Repr

/-- The host-visible registers that have storage of their own (R23 to R33), each as its implemented bits. -/
structure HostRegs where
  /-- `STATUS.DONE` (R23). -/
  done : Bool
  /-- `STATUS.CAUSE` (R23, R271). -/
  cause : Cause
  /-- `STATUS.ERR_BUSY` (R23, R275). -/
  errBusy : Bool
  /-- `IRQ_EN.DONE_IE` (R24). -/
  doneIe : Bool
  /-- `FRAME_W` (R25). -/
  frameW : BitVec 16
  /-- `FRAME_H` (R26). -/
  frameH : BitVec 16
  /-- `FRAME_CFG.INTERLACE` (R27). -/
  interlace : Bool
  /-- `FRAME_CFG.TRANSP_EN` (R27). -/
  transpEn : Bool
  /-- `FRAME_CFG.TRANSP_IDX` (R27). -/
  transpIdx : Byte
  /-- `FB_BASE` (R28). -/
  fbBase : Word
  /-- `PAL_INDEX` (R29). -/
  palIndex : Byte
  /-- `PIX_COUNT` (R31). -/
  pixCount : Word
  /-- `LZW_STATE` (R32). -/
  lzwState : LzwView
  /-- `BYTES_IN` (R33). -/
  bytesIn : Word
  deriving DecidableEq, Repr

/-- The working copies latched at START (R35). -/
structure FrameCfg where
  /-- `cfgW`. -/
  width : BitVec 16
  /-- `cfgH`. -/
  height : BitVec 16
  /-- `cfgIL`. -/
  interlace : Bool
  /-- `cfgTEN`. -/
  transpEn : Bool
  /-- `cfgTIDX`. -/
  transpIdx : Byte
  /-- `cfgFB`. -/
  base : Word
  /-- `total`. -/
  total : Word
  /-- `bpp`. -/
  bpp : BitVec 3
  deriving DecidableEq, Repr

/-- The raster cursor (R41): the position of the next pixel. -/
structure Cursor where
  row : BitVec 17
  col : BitVec 16
  pass : BitVec 3
  deriving DecidableEq, Repr

/-- The Bit/Block Reader's state (R42): the oldest unconsumed bit is `acc[0]`. -/
structure Reader where
  acc : BitBuffer
  nbits : BitVec 12
  exhausted : Bool
  deriving DecidableEq, Repr

/-- One slot of the LZW table RAM (R37): `prefix` and `suffix`. -/
structure Slot where
  pre : Code
  suf : Byte
  deriving DecidableEq, Repr

/-- The LZW Decompressor's state (R37, R38, R39). -/
structure Lzw where
  rootSize : BitVec 4
  clearCode : BitVec 13
  endCode : BitVec 13
  codeSize : BitVec 4
  maxCode : BitVec 13
  maxCodeSize : BitVec 13
  oldCode : Code
  firstCode : Byte
  fresh : Bool
  /-- `lzwDone`. -/
  result : LzwResult
  /-- The slots written since reset, by slot number, strictly rising (R37). -/
  table : List (Nat × Slot)
  /-- `stack[sp-1]` first, down to `stack[0]`; its length is `sp` (R39). -/
  stack : List Byte
  deriving DecidableEq, Repr

/-- One move of the interleaving (R7): a host operation, an action of the host's environment (R104), a grant of one step
to the engine, or a reset (R300). -/
inductive Move where
  /-- A register access, by its host operation word (R88). -/
  | op (w : HostWord)
  /-- The host presents bytes on the input port (R62; the script line `IN`, R104). -/
  | feed (bytes : List Byte)
  /-- The host asserts `in_eof` (R62; the script line `EOF`, R104). -/
  | endInput
  /-- The host takes back the first `n` bytes it has presented and the engine has not taken (R304 step 6, X-3; log 29). -/
  | withdraw (n : Nat)
  /-- One engine step, if the engine has one to take (R230). -/
  | engine
  /-- The host does nothing until `STATUS.DONE` = 1 (the script line `WAIT DONE`, R104). -/
  | waitDone
  /-- The host reads a byte of frame memory (R70, R71). -/
  | readFrame (a : Word)
  /-- The reset input (R300). -/
  | reset
  deriving DecidableEq, Repr

/-- Frame memory as the block has written it (R63, R64): bytes by 32-bit address. -/
abbrev Memory := List Host.Cell

/-- Keys strictly rising: the canonical form of every keyed list in `State`. -/
def keysRising {α : Type} : List (Nat × α) → Bool
  | [] => true
  | [_] => true
  | a :: b :: rest => decide (a.1 < b.1) && keysRising (b :: rest)

/-- The canonical form of memory: addresses strictly rising, each below 2^32. An unlisted byte has no value (log 5), so no
entry can equal what an unlisted address reads as. -/
def Memory.wf (m : Memory) : Bool :=
  keysRising m && m.all fun cell => decide (cell.1 < 2 ^ 32)

/-- The whole machine. -/
structure State where
  /-- The host-visible registers (R21 to R33). -/
  regs : HostRegs
  /-- The latched frame configuration (R35). -/
  cfg : FrameCfg
  /-- The sequencer phase (R40). -/
  phase : Phase
  /-- The pending completion cause `pend` (R47). -/
  pend : Cause
  /-- The frame flag `extra`, `STATUS.EXTRA_DATA` (R43). -/
  extra : Bool
  /-- The frame flag `noEnd`, `STATUS.NO_END_CODE` (R43). -/
  noEnd : Bool
  /-- The raster cursor (R41). -/
  cur : Cursor
  /-- The reader (R42). -/
  rd : Reader
  /-- The LZW unit (R37 to R39). -/
  lzw : Lzw
  /-- The palette entries loaded since reset, by index, strictly rising (R36). -/
  pal : List (Nat × Rgb)
  /-- The frame memory bytes the block has written (R60, R63). -/
  mem : Memory
  /-- `IN`: the bytes presented on the input port and not yet taken (R62). -/
  input : List Byte
  /-- `in_eof` (R62). -/
  inEof : Bool
  /-- `reg_rdata`, the reply of the last register read (R88, R111). -/
  rdata : Word
  /-- The byte the host's last frame-memory read returned (log 4). -/
  frameReply : Byte
  /-- The moves still to come, next first (log 1). -/
  agenda : List Move
  /-- How many free bytes host reads under R70 have drawn (log 4). -/
  draws : Nat
  /-- How many resets have occurred (log 7). -/
  resets : Nat
  deriving DecidableEq, Repr

/-- Why the machine stops. -/
inductive Fault where
  /-- Raised by the meaning of a code, a sub-block token or a root byte in a phase whose step takes no such token (R230:
  a code belongs to FILL and TAIL, a sub-block to FILL, TAIL and DRAIN, a root byte to ROOT). `step` never fetches a token in
  such a phase. Safe: the block has no step there. -/
  | outOfPhase
  /-- Raised by the meaning of CLEAR, SUBBLOCK.TERMINATOR and SUBBLOCK.DATA when the rest of the `NextIndex` call would never
  return: an endless run of clear codes of width 0, in states that no run reaches (`codeSize` is 3..12, R160). Safe. -/
  | engineStalled
  deriving DecidableEq, Repr

/-- Why an instruction has no meaning. -/
inductive Refusal where
  /-- Raised by `exec` for a row whose meaning is not written yet. Safe. -/
  | notModelled (mnemonic : String)
  deriving DecidableEq, Repr

/-- The machine right after reset (R45, R300, R302), with nothing on its ports and nothing scheduled. -/
def State.reset : State where
  regs :=
    { done := false, cause := .ok, errBusy := false, doneIe := false, frameW := 0, frameH := 0, interlace := false,
      transpEn := false, transpIdx := 0, fbBase := 0, palIndex := 0, pixCount := 0,
      lzwState := { codeSize := 0, maxCode := 0, fresh := false, rootByte := 0 }, bytesIn := 0 }
  cfg :=
    { width := 0, height := 0, interlace := false, transpEn := false, transpIdx := 0, base := 0, total := 0, bpp := 0 }
  phase := .idle
  pend := .ok
  extra := false
  noEnd := false
  cur := { row := 0, col := 0, pass := 0 }
  rd := { acc := 0, nbits := 0, exhausted := false }
  lzw :=
    { rootSize := 0, clearCode := 0, endCode := 0, codeSize := 0, maxCode := 0, maxCodeSize := 0, oldCode := 0,
      firstCode := 0, fresh := false, result := .none, table := [], stack := [] }
  pal := []
  mem := []
  input := []
  inEof := false
  rdata := 0
  frameReply := 0
  agenda := []
  draws := 0
  resets := 0

end Sys2Proof.Machine
end

