-- ==== Sys2Proof/Machine/Ops.lean ====
section
/-! DEFINITION. The named operations over storage: keyed lists, frame memory, palette, input port; the block's one
exceptional event (`finish`, R272) and the return from it (START, R273); the reset event (R300). -/

namespace Sys2Proof.Machine

/-! ### Keyed lists -/

/-- The value at key `k`, if the list has one. -/
def cellGet {α : Type} (k : Nat) : List (Nat × α) → Option α
  | [] => none
  | (j, u) :: rest => if k = j then some u else cellGet k rest

/-- Write `v` at key `k`, keeping the keys strictly rising. -/
def cellSet {α : Type} (k : Nat) (v : α) : List (Nat × α) → List (Nat × α)
  | [] => [(k, v)]
  | (j, u) :: rest =>
    if k < j then (k, v) :: (j, u) :: rest
    else if k = j then (k, v) :: rest
    else (j, u) :: cellSet k v rest

/-! ### Frame memory -/

/-- The byte the block has written at an address, if any. -/
def memRead (m : Memory) (a : Word) : Option Byte :=
  cellGet a.toNat m

/-- Byte `k` of a word, byte 0 the least significant (R64). -/
def wordByte (v : Word) (k : Nat) : Byte :=
  v.extractLsb' (8 * k) 8

/-- `MemWrite(addr, n, v)` (R12, R64): byte `k` of `v` to `(addr + k) mod 2^32`, for `k` below `n`. -/
def memWrite (addr : Word) (v : Word) : Nat → Memory → Memory
  | 0, m => m
  | k + 1, m => cellSet (addr + BitVec.ofNat 32 k).toNat (wordByte v k) (memWrite addr v k m)

/-- What the frame memory holds at an address: the byte the block wrote there last, or, before that, the byte's
earlier contents, which are the host's (R242, R248; log 5). -/
def frameByte (s : State) (a : Word) : Byte :=
  (memRead s.mem a).getD (Config.frameInit a.toNat)

/-- The address lies in the frame's write footprint `[cfgFB, cfgFB + bpp * total)`, modulo 2^32 (R73). -/
def inFootprint (c : FrameCfg) (a : Word) : Bool :=
  decide ((a - c.base).toNat < c.bpp.toNat * c.total.toNat)

/-! ### Palette -/

/-- `PalRead(i)` (R12, R36): the entry loaded last, or `PAL_INIT[i]`. -/
def palRead (s : State) (i : Byte) : Rgb :=
  (cellGet i.toNat s.pal).getD (Config.palInit i)

/-! ### Input port -/

/-- `TakeByte()` (R62): the next byte of `IN`, counted in `BYTES_IN`; `none` is `EOF`. -/
def takeByte (s : State) : Option Byte × State :=
  match s.input with
  | [] => (none, s)
  | b :: rest => (some b, { s with input := rest, regs := { s.regs with bytesIn := s.regs.bytesIn + 1 } })

/-- Take `n` bytes; at end of input the bytes already taken stay consumed (R152). -/
def takeBytes : Nat → State → Option (List Byte) × State
  | 0, s => (some [], s)
  | n + 1, s =>
    match takeByte s with
    | (none, s1) => (none, s1)
    | (some b, s1) =>
      match takeBytes n s1 with
      | (none, s2) => (none, s2)
      | (some rest, s2) => (some (b :: rest), s2)

/-- The host presents bytes (R62, R104): they queue behind those already waiting, and `in_eof` is withdrawn (log 20). START
and reset leave the bytes waiting, so they head the next frame's `IN` (R62, X-3), unless the host takes them back, which
is the model's choice (DESIGN CHOICE, log 29). -/
def feedInput (bytes : List Byte) (s : State) : State :=
  { s with input := s.input ++ bytes, inEof := false }

/-- The host asserts `in_eof` (R62). -/
def endInput (s : State) : State :=
  { s with inEof := true }

/-- The host takes back the first `n` bytes presented and not taken, as it may when it skips the rest of an image's data
(R304 step 6). DESIGN CHOICE (log 29): the spec leaves open whether it can; here it can, at any time, and need not. Bytes
taken stay taken (R62). -/
def withdrawInput (n : Nat) (s : State) : State :=
  { s with input := s.input.drop n }

/-! ### The completion event, and the return from it -/

/-- `finish(cause)` (R272): the block's one exceptional event. It saves nothing and has no vector (R273). -/
def finish (cause : Cause) (s : State) : State :=
  { s with phase := .idle, regs := { s.regs with cause := cause, done := true } }

/-- The working copies that START latches (R35, R113). -/
def latchCfg (r : HostRegs) : FrameCfg where
  width := r.frameW
  height := r.frameH
  interlace := r.interlace
  transpEn := r.transpEn
  transpIdx := r.transpIdx
  base := r.fbBase
  total := BitVec.ofNat 32 (r.frameW.toNat * r.frameH.toNat)
  bpp := if r.transpEn then 4 else 3

/-- START (R113, R114), the return from a completion (R273): while IDLE it starts a frame, while BUSY it is refused with
`ERR_BUSY`. -/
def startFrame (s : State) : State :=
  if s.phase = .idle then
    { s with
      cfg := latchCfg s.regs
      regs :=
        { s.regs with
          done := false, cause := .ok, pixCount := 0, bytesIn := 0
          lzwState := { codeSize := 0, maxCode := 0, fresh := false, rootByte := 0 } }
      extra := false
      noEnd := false
      cur := { row := 0, col := 0, pass := 1 }
      phase := .root }
  else { s with regs := { s.regs with errBusy := true } }

/-- ABORT (R116): ends a running frame, and does nothing while IDLE. -/
def abortFrame (s : State) : State :=
  if s.phase = .idle then s else finish .aborted s

/-- `CorruptExit(c)` (R243): the input is empty after INPUT_EOF, and every other cause drains first. -/
def corruptExit (c : Cause) (s : State) : State :=
  if c = .inputEof then finish .inputEof s else { s with pend := c, phase := .drain }

/-! ### Reset -/

/-- The reset event (R300, R301): every state element takes its value of R45. Frame memory, the ports and the schedule
are not the block's, and stay. -/
def resetBlock (s : State) : State :=
  { State.reset with
    mem := s.mem, input := s.input, inEof := s.inEof, rdata := s.rdata, frameReply := s.frameReply
    agenda := s.agenda, draws := s.draws, resets := s.resets + 1 }

/-! ### The host's reads of frame memory -/

/-- A host read of frame memory: any value inside the footprint of a running frame (R70), the byte the memory holds
elsewhere and after DONE (R69, R71). -/
def readFrame (a : Word) (s : State) : State :=
  if s.phase ≠ .idle ∧ inFootprint s.cfg a then
    { s with frameReply := Config.frameDraw s.draws, draws := s.draws + 1 }
  else { s with frameReply := frameByte s a }

/-- The platform address of the register at byte offset `off` (R61). -/
def regAddress (off : Byte) : Word :=
  Config.regBase + (off &&& 0xFC#8).setWidth 32

end Sys2Proof.Machine
end

