-- ==== Sys2Proof/Machine/Operands.lean ====
section
/-! DEFINITION. The operand forms: the fields of write data (R89, R117 to R125), the code taken from the bit buffer
(R65, R153), the pixel word (R91) and the addresses of pixels (R63). -/

namespace Sys2Proof.Machine

/-! ### Fields of write data -/

/-- `CTRL.START`, bit 0 (R89). -/
def dataStart (v : Word) : Bool := v.getLsbD 0

/-- `CTRL.ABORT`, bit 1 (R89). -/
def dataAbort (v : Word) : Bool := v.getLsbD 1

/-- `STATUS.DONE`, bit 1, write 1 to clear (R117). -/
def dataClearDone (v : Word) : Bool := v.getLsbD 1

/-- `STATUS.ERR_BUSY`, bit 16, write 1 to clear (R117). -/
def dataClearErr (v : Word) : Bool := v.getLsbD 16

/-- `IRQ_EN.DONE_IE`, bit 0 (R118). -/
def dataDoneIe (v : Word) : Bool := v.getLsbD 0

/-- `FRAME_W` and `FRAME_H`, bits 15:0 (R119, R120). -/
def dataDimension (v : Word) : BitVec 16 := v.extractLsb' 0 16

/-- `FRAME_CFG.INTERLACE`, bit 0 (R121). -/
def dataInterlace (v : Word) : Bool := v.getLsbD 0

/-- `FRAME_CFG.TRANSP_EN`, bit 1 (R121). -/
def dataTranspEn (v : Word) : Bool := v.getLsbD 1

/-- `FRAME_CFG.TRANSP_IDX`, bits 15:8 (R121). -/
def dataTranspIdx (v : Word) : Byte := v.extractLsb' 8 8

/-- `PAL_INDEX`, bits 7:0 (R125). -/
def dataPalIndex (v : Word) : Byte := v.extractLsb' 0 8

/-- `PAL_DATA`, bits 23:0 (R92, R123). -/
def dataRgb (v : Word) : Rgb := v.extractLsb' 0 24

/-! ### Codes from the bit buffer -/

/-- Append one payload byte above the valid bits (R153). -/
def appendByte (r : Reader) (b : Byte) : Reader :=
  { r with acc := r.acc ||| (b.setWidth 2051 <<< r.nbits.toNat), nbits := r.nbits + 8 }

/-- Append the payload of a sub-block, in stream order (R153). -/
def appendData (r : Reader) (data : List Byte) : Reader :=
  data.foldl appendByte r

/-- Take a code of `w` bits: the oldest bits, the first of them bit 0 (R65, R153). -/
def takeCode (w : Nat) (r : Reader) : Code × Reader :=
  (BitVec.ofNat 12 (r.acc.toNat % 2 ^ w), { r with acc := r.acc >>> w, nbits := r.nbits - BitVec.ofNat 12 w })

/-! ### Pixels -/

/-- `pixAddr(r, c)` (R63): row-major from `cfgFB`, modulo 2^32. -/
def pixAddr (c : FrameCfg) (row col : Nat) : Word :=
  BitVec.ofNat 32 (c.base.toNat + c.bpp.toNat * (row * c.width.toNat + col))

/-- The alpha of index `i` (R239): 0x00 for the transparent index and 0xFF for the others; 0, and not written, in an RGB
frame (R240). -/
def pixelAlpha (c : FrameCfg) (i : Byte) : Byte :=
  if c.transpEn then (if i = c.transpIdx then 0x00#8 else 0xFF#8) else 0x00#8

/-- `PixelValue(i)` (R91, R240): `{A, R, G, B}`. -/
def pixelValue (s : State) (i : Byte) : Word :=
  pixelAlpha s.cfg i ++ palRead s i

end Sys2Proof.Machine
end

