-- ==== Sys2Proof/Machine/Reader.lean ====
section
/-! DEFINITION. The Bit/Block Reader (41_block_reader.md): `Reinit`, `ReadSubBlock`, `NextCode`, `Discard`, `DrainRead`. -/

namespace Sys2Proof.Machine

/-- `CodeResult` (R13, R153). -/
inductive CodeResult where
  | code (c : Code)
  | endOfStream
  | corrupt
  deriving DecidableEq, Repr

/-- The result of `ReadSubBlock` (R152): `EOF`, or the length byte with the payload. -/
inductive SubBlock where
  | eof
  | block (n : Byte) (data : List Byte)
  deriving DecidableEq, Repr

/-- The result of `DrainRead` (R158). -/
inductive DrainResult where
  | terminated
  | more
  | eof
  deriving DecidableEq, Repr

/-- `Reinit()` (R151). -/
def reinit (s : State) : State :=
  { s with rd := { acc := 0, nbits := 0, exhausted := false } }

/-- `Discard()` (R157). -/
def discard (s : State) : State :=
  { s with rd := { s.rd with acc := 0, nbits := 0 } }

/-- The terminator of the image's data has been read (R153, R158, R187). -/
def setExhausted (s : State) : State :=
  { s with rd := { s.rd with exhausted := true } }

/-- The payload of a sub-block, once its length byte has been taken (R152). -/
def readPayload (n : Byte) (s : State) : SubBlock × State :=
  match takeBytes n.toNat s with
  | (none, s1) => (.eof, s1)
  | (some data, s1) => (.block n data, s1)

/-- `ReadSubBlock()` (R152). -/
def readSubBlock (s : State) : SubBlock × State :=
  match takeByte s with
  | (none, s1) => (.eof, s1)
  | (some n, s1) => readPayload n s1

/-- Add a sub-block to the buffer (R153): the terminator adds no bits and sets `exhausted`. -/
def refill (n : Byte) (data : List Byte) (s : State) : State :=
  if n = 0 then setExhausted s else { s with rd := appendData s.rd data }

/-- The loop of `NextCode(w)` (R153). A turn that goes round takes a byte, so as many turns as `IN` has bytes, and one
more, always suffice; the answer with no turns left is never given. -/
def nextCodeLoop (w : Nat) : Nat → State → CodeResult × State
  | 0, s => (.corrupt, s)
  | turns + 1, s =>
    if w ≤ s.rd.nbits.toNat then ((.code (takeCode w s.rd).1), { s with rd := (takeCode w s.rd).2 })
    else if s.rd.exhausted then (.endOfStream, s)
    else
      match readSubBlock s with
      | (.eof, s1) => (.corrupt, s1)
      | (.block n data, s1) => nextCodeLoop w turns (refill n data s1)

/-- `NextCode(w)` (R153, R155, R156). -/
def nextCode (w : Nat) (s : State) : CodeResult × State :=
  nextCodeLoop w (s.input.length + 1) s

/-- `DrainRead()` (R158). -/
def drainRead (s : State) : DrainResult × State :=
  if s.rd.exhausted then (.terminated, s)
  else
    match readSubBlock s with
    | (.eof, s1) => (.eof, s1)
    | (.block n _, s1) => if n = 0 then (.terminated, setExhausted s1) else (.more, s1)

end Sys2Proof.Machine
end

