-- ==== Sys2Proof/Machine/Decompressor.lean ====
section
/-! DEFINITION. The LZW Decompressor (42_lzw.md): `Init`, `ResetTable`, the operations of the code classes, and
`NextIndex`. -/

namespace Sys2Proof.Machine

/-- `IndexResult` (R13, R184). -/
inductive IndexResult where
  | index (i : Byte)
  | endOfData
  | corrupt (c : Cause)
  deriving DecidableEq, Repr

/-- What a part of an expansion leaves: the unit's state, or the state in which a check raised a cause (R202). -/
inductive Attempt where
  | ok (l : Lzw)
  | raised (c : Cause) (l : Lzw)
  deriving DecidableEq, Repr

/-- Go on from an attempt that raised nothing. -/
def andThen (a : Attempt) (f : Lzw → Attempt) : Attempt :=
  match a with
  | .ok l => f l
  | .raised c l => .raised c l

/-! ### Initialisation -/

/-- The roots map to themselves (R182): slots `0..n-1`. -/
def writeRoots : Nat → List (Nat × Slot) → List (Nat × Slot)
  | 0, t => t
  | n + 1, t => cellSet n { pre := 0, suf := BitVec.ofNat 8 n } (writeRoots n t)

/-- `ResetTable()` (R182). -/
def resetTable (l : Lzw) : Lzw :=
  { l with
    table := writeRoots l.clearCode.toNat l.table
    codeSize := l.rootSize + 1
    maxCode := l.clearCode + 2
    maxCodeSize := 2 * l.clearCode
    stack := []
    fresh := true }

/-- `Init(root)` (R181). -/
def initLzw (root : Byte) (l : Lzw) : Lzw :=
  resetTable
    { l with
      rootSize := root.setWidth 4
      clearCode := 1#13 <<< root.toNat
      endCode := (1#13 <<< root.toNat) + 1
      oldCode := 0
      firstCode := 0
      result := .none }

/-! ### Stack, table and growth -/

/-- `Push(v)` (R194). -/
def push (v : Byte) (l : Lzw) : Attempt :=
  if Config.stackDepth ≤ l.stack.length then .raised .lzwStackOverflow l
  else .ok { l with stack := v :: l.stack }

/-- `Pop()` (R198), called with `sp > 0` only: last in, first out. -/
def pop (l : Lzw) : Byte × Lzw :=
  (l.stack.headD 0, { l with stack := l.stack.tail })

/-- Table slot `c` (R37): as last written, or unspecified contents (R45, I7), which R196 says are never read. -/
def readSlot (resets : Nat) (l : Lzw) (c : Code) : Slot :=
  (cellGet c.toNat l.table).getD
    { pre := (Config.tableInit resets c.toNat).extractLsb' 8 12
      suf := (Config.tableInit resets c.toNat).extractLsb' 0 8 }

/-- `Grow()` (R197). -/
def grow (l : Lzw) : Lzw :=
  if l.maxCode = l.maxCodeSize ∧ l.maxCodeSize.toNat < Config.tableSize then
    { l with maxCodeSize := 2 * l.maxCodeSize, codeSize := l.codeSize + 1 }
  else l

/-- `Insert()` (R195): nothing when the table is full. -/
def insertEntry (l : Lzw) : Lzw :=
  if l.maxCode.toNat < Config.tableSize then
    grow
      { l with
        table := cellSet l.maxCode.toNat { pre := l.oldCode, suf := l.firstCode } l.table
        maxCode := l.maxCode + 1 }
  else l

/-- The end of every expansion: `Insert()`, then `oldCode` takes the code as read (R195, R199). -/
def insertThenOld (incode : Code) (l : Lzw) : Lzw :=
  { insertEntry l with oldCode := incode }

/-- The chain walk (R193). Every turn that goes round pushes a symbol, so the stack's depth and one more turns always
suffice; the answer with no turns left is never given. -/
def walkLoop (resets : Nat) : Nat → Code → Lzw → Attempt
  | 0, _, l => .raised .lzwStackOverflow l
  | turns + 1, c, l =>
    if l.clearCode.toNat ≤ c.toNat then
      if l.maxCode.toNat ≤ c.toNat then .raised .lzwUndefinedCode l
      else
        andThen (push (readSlot resets l c).suf l) fun l1 =>
          if (readSlot resets l c).pre = c then .raised .lzwSelfPrefix l1
          else walkLoop resets turns (readSlot resets l c).pre l1
    else push (c.setWidth 8) { l with firstCode := c.setWidth 8 }

/-- The chain walk from code `c` down to a root (R193). -/
def walk (resets : Nat) (c : Code) (l : Lzw) : Attempt :=
  walkLoop resets (Config.stackDepth + 1) c l

/-! ### The code classes -/

/-- FIRST (R188), with the check of R189. -/
def firstCodeOp (c : Code) (l : Lzw) : Attempt :=
  if l.maxCode.toNat ≤ c.toNat then .raised .lzwBadFirstCode l
  else .ok { l with fresh := false, oldCode := c, firstCode := c.setWidth 8 }

/-- LITERAL (R190): the walk does not run. -/
def literalOp (c : Code) (l : Lzw) : Attempt :=
  andThen (push (c.setWidth 8) { l with firstCode := c.setWidth 8 }) fun l1 => .ok (insertThenOld c l1)

/-- DEFINED (R191): the walk starts at `c`. -/
def definedOp (resets : Nat) (c : Code) (l : Lzw) : Attempt :=
  andThen (walk resets c l) fun l1 => .ok (insertThenOld c l1)

/-- KWKWK (R192): the previous first code is pushed, and the walk starts at the previous code. -/
def kwkwkOp (resets : Nat) (c : Code) (l : Lzw) : Attempt :=
  andThen (push l.firstCode l) fun l1 =>
    andThen (walk resets l1.oldCode l1) fun l2 => .ok (insertThenOld c l2)

/-- `raise Corrupt(cause)` (R202). -/
def raiseCorrupt (c : Cause) (s : State) : IndexResult × State :=
  (.corrupt c, { s with lzw := { s.lzw with stack := [], result := .corrupt c } })

/-- An expansion's end (R190, R191, R192, R202): the top symbol is the index, or the cause is raised. -/
def popAttempt (a : Attempt) (s : State) : IndexResult × State :=
  match a with
  | .ok l => (.index (pop l).1, { s with lzw := (pop l).2 })
  | .raised c l => raiseCorrupt c { s with lzw := l }

/-- FIRST returns its code as the index and pushes nothing (R188). -/
def runFirst (c : Code) (s : State) : IndexResult × State :=
  match firstCodeOp c s.lzw with
  | .ok l => (.index (c.setWidth 8), { s with lzw := l })
  | .raised e l => raiseCorrupt e { s with lzw := l }

/-- BAD_FIRST (R189). -/
def runBadFirst (_c : Code) (s : State) : IndexResult × State :=
  raiseCorrupt .lzwBadFirstCode s

/-- LITERAL (R190). -/
def runLiteral (c : Code) (s : State) : IndexResult × State :=
  popAttempt (literalOp c s.lzw) s

/-- DEFINED (R191). -/
def runDefined (c : Code) (s : State) : IndexResult × State :=
  popAttempt (definedOp s.resets c s.lzw) s

/-- KWKWK (R192). -/
def runKwkwk (c : Code) (s : State) : IndexResult × State :=
  popAttempt (kwkwkOp s.resets c s.lzw) s

/-- The result `EndOfData`, sticky (R187, R202). -/
def endOfData (s : State) : IndexResult × State :=
  (.endOfData, { s with lzw := { s.lzw with result := .endOfData } })

/-- END, `EndCode()` (R187). -/
def runEnd (s : State) : IndexResult × State :=
  if (discard s).rd.exhausted then endOfData (discard s)
  else
    match readSubBlock (discard s) with
    | (.eof, s1) => raiseCorrupt .inputEof s1
    | (.block n _, s1) => if n = 0 then endOfData (setExhausted s1) else raiseCorrupt .badTerminator s1

/-- CLEAR (R186), before the same call reads on. -/
def clearTable (s : State) : State :=
  { s with lzw := resetTable s.lzw }

/-- The data ended at its terminator without an end code (R185). -/
def streamEnded (s : State) : IndexResult × State :=
  endOfData { s with noEnd := true }

/-! ### NextIndex -/

/-- The decoder state a code's class depends on (R85). -/
def codeContext (l : Lzw) : CodeContext :=
  { clearCode := l.clearCode, endCode := l.endCode, maxCode := l.maxCode, fresh := l.fresh }

/-- The loop of `NextIndex()` (R184), entered with an empty stack. A turn that goes round takes a clear code. `none`: the
turns ran out. -/
def nextIndexLoop : Nat → State → Option (IndexResult × State)
  | 0, _ => none
  | turns + 1, s =>
    match nextCode s.lzw.codeSize.toNat s with
    | (.endOfStream, s1) => some (streamEnded s1)
    | (.corrupt, s1) => some (raiseCorrupt .inputEof s1)
    | (.code c, s1) =>
      match classify (codeContext s1.lzw) c with
      | .clear => nextIndexLoop turns (clearTable s1)
      | .endOfImage => some (runEnd s1)
      | .first => some (runFirst c s1)
      | .badFirst => some (runBadFirst c s1)
      | .literal => some (runLiteral c s1)
      | .defined => some (runDefined c s1)
      | .kwkwk => some (runKwkwk c s1)

/-- More turns than a `NextIndex` call can take: every clear code takes at least one bit of the buffer or of `IN`. -/
def turnsFor (s : State) : Nat :=
  s.rd.nbits.toNat + 8 * s.input.length + 2

/-- The code-reading part of `NextIndex()` (R184). -/
def readIndex (s : State) : Option (IndexResult × State) :=
  nextIndexLoop (turnsFor s) s

/-- A result that needs no code: the sticky result (R202), or the next symbol of the stack (R198). -/
def heldIndex (s : State) : Option (IndexResult × State) :=
  match s.lzw.result with
  | .endOfData => some (.endOfData, s)
  | .corrupt c => some (.corrupt c, s)
  | .none =>
    if s.lzw.stack = [] then none else some (.index (pop s.lzw).1, { s with lzw := (pop s.lzw).2 })

/-- `NextIndex()` (R184). -/
def nextIndex (s : State) : Option (IndexResult × State) :=
  match heldIndex s with
  | some r => some r
  | none => readIndex s

end Sys2Proof.Machine
end

