-- ==== Sys2Proof/Machine/Flags.lean ====
section
/-! DEFINITION. The flags and their encodings: the phase and cause codes (R90, R271), the words that registers read as
(R21 to R34, R126 to R128), the interrupt output (R274), and the snapshot `UpdateLzwState` takes (R246). -/

namespace Sys2Proof.Machine

/-- `STATUS.PHASE` (R90). -/
def phaseCode : Phase → BitVec 3
  | .idle => 0
  | .root => 1
  | .fill => 2
  | .tail => 3
  | .drain => 4

/-- `STATUS.CAUSE` (R271). -/
def causeCode : Cause → BitVec 4
  | .ok => 0
  | .shortData => 1
  | .badRoot => 2
  | .badTerminator => 3
  | .lzwSelfPrefix => 4
  | .lzwUndefinedCode => 5
  | .lzwStackOverflow => 6
  | .lzwBadFirstCode => 7
  | .inputEof => 8
  | .aborted => 9

/-- A flag as one bit. -/
def flagBit (b : Bool) : BitVec 1 :=
  BitVec.ofBool b

/-- `STATUS.BUSY` (R23): 1 exactly when the phase is not IDLE. -/
def busy (s : State) : Bool :=
  decide (s.phase ≠ .idle)

/-- The interrupt output (R44, R274). -/
def irq (s : State) : Bool :=
  s.regs.done && s.regs.doneIe

/-- The stack depth `sp` (R39). -/
def sp (l : Lzw) : Nat :=
  l.stack.length

/-- `ID` (R21): 'J', 'I', 'F' and the block revision. -/
def idWord : Word := 0x4A494601#32

/-- `STATUS` as it reads (R126). -/
def statusWord (s : State) : Word :=
  0#15 ++ flagBit s.regs.errBusy ++ 0#4 ++ causeCode s.regs.cause ++ 0#1 ++ phaseCode s.phase
    ++ flagBit s.noEnd ++ flagBit s.extra ++ flagBit s.regs.done ++ flagBit (busy s)

/-- `IRQ_EN` as it reads (R24). -/
def irqEnWord (r : HostRegs) : Word :=
  0#31 ++ flagBit r.doneIe

/-- `FRAME_W` as it reads (R25). -/
def frameWWord (r : HostRegs) : Word :=
  0#16 ++ r.frameW

/-- `FRAME_H` as it reads (R26). -/
def frameHWord (r : HostRegs) : Word :=
  0#16 ++ r.frameH

/-- `FRAME_CFG` as it reads (R27, R121). -/
def frameCfgWord (r : HostRegs) : Word :=
  0#16 ++ r.transpIdx ++ 0#6 ++ flagBit r.transpEn ++ flagBit r.interlace

/-- `PAL_INDEX` as it reads (R29). -/
def palIndexWord (r : HostRegs) : Word :=
  0#24 ++ r.palIndex

/-- `PAL_DATA` as it reads (R30, R124). -/
def palDataWord (s : State) : Word :=
  0#8 ++ palRead s s.regs.palIndex

/-- `LZW_STATE` as it reads (R32). -/
def lzwStateWord (r : HostRegs) : Word :=
  r.lzwState.rootByte ++ 0#6 ++ flagBit r.lzwState.fresh ++ r.lzwState.maxCode ++ r.lzwState.codeSize

/-- `UpdateLzwState()` (R246), in a step of a frame for which `Init` has run. -/
def updateLzwState (s : State) : State :=
  { s with
    regs :=
      { s.regs with
        lzwState :=
          { s.regs.lzwState with codeSize := s.lzw.codeSize, maxCode := s.lzw.maxCode, fresh := s.lzw.fresh } } }

end Sys2Proof.Machine
end

