-- ==== Sys2Proof/Machine/Raster.lean ====
section
/-! DEFINITION. The raster pipeline (43_raster_pipeline.md): the row order, the pixel write, and what a FILL or TAIL step
does with the result of its `NextIndex` call. -/

namespace Sys2Proof.Machine

/-- The start row of an interlace pass (R236): 0, 4, 2, 1 for passes 1 to 4 (log 15). -/
def passStart (p : BitVec 3) : BitVec 17 :=
  if p.toNat ≤ 1 then 0 else if p.toNat = 2 then 4 else if p.toNat = 3 then 2 else 1

/-- The row step of an interlace pass (R236): 8, 8, 4, 2 for passes 1 to 4 (log 15). -/
def passStep (p : BitVec 3) : BitVec 17 :=
  if p.toNat ≤ 2 then 8 else if p.toNat = 3 then 4 else 2

/-- The `while` of R236: skip every pass that has no row left in the frame. A pass number is at most 4, so four turns
suffice. -/
def skipPasses (height : BitVec 16) : Nat → Cursor → Cursor
  | 0, c => c
  | turns + 1, c =>
    if height.toNat ≤ c.row.toNat ∧ c.pass.toNat < 4 then
      skipPasses height turns { c with pass := c.pass + 1, row := passStart (c.pass + 1) }
    else c

/-- `Advance()` (R235 for a sequential frame, R236 for an interlaced one). -/
def advance (f : FrameCfg) (c : Cursor) : Cursor :=
  if c.col + 1 = f.width then
    if f.interlace then skipPasses f.height 4 { c with col := 0, row := c.row + passStep c.pass }
    else { c with col := 0, row := c.row + 1 }
  else { c with col := c.col + 1 }

/-- The pixel write of a FILL step (R234, R240, R241), and the move of the cursor. -/
def writePixel (i : Byte) (s : State) : State :=
  { s with
    mem := memWrite (pixAddr s.cfg s.cur.row.toNat s.cur.col.toNat) (pixelValue s i) s.cfg.bpp.toNat s.mem
    regs := { s.regs with pixCount := s.regs.pixCount + 1 }
    cur := advance s.cfg s.cur }

/-- After the last pixel the frame goes to TAIL (R234, R231). -/
def toTailWhenFull (s : State) : State :=
  if s.regs.pixCount = s.cfg.total then { s with phase := .tail } else s

/-- What a FILL step does with its result (R234, R242, R243). -/
def fillResult (r : IndexResult) (s : State) : State :=
  match r with
  | .index i => toTailWhenFull (writePixel i s)
  | .endOfData => finish .shortData s
  | .corrupt c => corruptExit c s

/-- What a TAIL step does with its result (R244). -/
def tailResult (r : IndexResult) (s : State) : State :=
  match r with
  | .index _ => { s with extra := true }
  | .endOfData => finish .ok s
  | .corrupt c => corruptExit c s

/-- The end of a FILL or TAIL step, with `UpdateLzwState()` (R234, R244, R246). Only those phases call `NextIndex`
(R230; log 12). -/
def settle (r : IndexResult) (s : State) : Host.Outcome State Fault Refusal :=
  match s.phase with
  | .fill => .next (updateLzwState (fillResult r s))
  | .tail => .next (updateLzwState (tailResult r s))
  | .idle => .fault .outOfPhase
  | .root => .fault .outOfPhase
  | .drain => .fault .outOfPhase

/-- The rest of a FILL or TAIL step whose `NextIndex` call goes on reading codes (R153, R186). -/
def readOn (s : State) : Host.Outcome State Fault Refusal :=
  match readIndex s with
  | none => .fault .engineStalled
  | some (r, s1) => settle r s1

end Sys2Proof.Machine
end

