-- ==== Sys2Proof/Machine/Codes.lean ====
section
/-! DEFINITION. The meanings of the seven code classes (R186 to R192). Each runs in the FILL or TAIL step whose `NextIndex`
call has just taken the code from the bit buffer (R184, log 14), and goes to the end of that step. -/

namespace Sys2Proof.Machine

/-- CLEAR (R186): reset the table, then the same call reads the next code. -/
def execClear (s : State) : Host.Outcome State Fault Refusal :=
  readOn (clearTable s)

/-- END (R187): discard the buffered bits, check the terminator, end the data. -/
def execEnd (s : State) : Host.Outcome State Fault Refusal :=
  settle (runEnd s).1 (runEnd s).2

/-- FIRST (R188). -/
def execFirst (c : Code) (s : State) : Host.Outcome State Fault Refusal :=
  settle (runFirst c s).1 (runFirst c s).2

/-- BAD_FIRST (R189). -/
def execBadFirst (c : Code) (s : State) : Host.Outcome State Fault Refusal :=
  settle (runBadFirst c s).1 (runBadFirst c s).2

/-- LITERAL (R190). -/
def execLiteral (c : Code) (s : State) : Host.Outcome State Fault Refusal :=
  settle (runLiteral c s).1 (runLiteral c s).2

/-- DEFINED (R191). -/
def execDefined (c : Code) (s : State) : Host.Outcome State Fault Refusal :=
  settle (runDefined c s).1 (runDefined c s).2

/-- KWKWK (R192). -/
def execKwkwk (c : Code) (s : State) : Host.Outcome State Fault Refusal :=
  settle (runKwkwk c s).1 (runKwkwk c s).2

end Sys2Proof.Machine
end

