-- ==== Sys2Proof/Machine/HostReads.lean ====
section
/-! DEFINITION. The meanings of the register reads (R111, R124, R126 to R128). Bits 33:32 of the word are ignored (R61),
and a read has no write data (R88). -/

namespace Sys2Proof.Machine

/-- The reply of a register read on `reg_rdata` (R88, R111). A read changes nothing else (R68). -/
def reply (v : Word) (s : State) : Host.Outcome State Fault Refusal :=
  .next { s with rdata := v }

/-- `RD` of ID (R21, R127). -/
def execRdId (_lo : BitVec 2) (_data : Word) (s : State) : Host.Outcome State Fault Refusal :=
  reply idWord s

/-- `RD` of CTRL: it reads 0 (R22, R127). -/
def execRdCtrl (_lo : BitVec 2) (_data : Word) (s : State) : Host.Outcome State Fault Refusal :=
  reply (0#32) s

/-- `RD` of STATUS (R126). -/
def execRdStatus (_lo : BitVec 2) (_data : Word) (s : State) : Host.Outcome State Fault Refusal :=
  reply (statusWord s) s

/-- `RD` of IRQ_EN (R24, R128). -/
def execRdIrqEn (_lo : BitVec 2) (_data : Word) (s : State) : Host.Outcome State Fault Refusal :=
  reply (irqEnWord s.regs) s

/-- `RD` of FRAME_W (R25, R128). -/
def execRdFrameW (_lo : BitVec 2) (_data : Word) (s : State) : Host.Outcome State Fault Refusal :=
  reply (frameWWord s.regs) s

/-- `RD` of FRAME_H (R26, R128). -/
def execRdFrameH (_lo : BitVec 2) (_data : Word) (s : State) : Host.Outcome State Fault Refusal :=
  reply (frameHWord s.regs) s

/-- `RD` of FRAME_CFG (R27, R128). -/
def execRdFrameCfg (_lo : BitVec 2) (_data : Word) (s : State) : Host.Outcome State Fault Refusal :=
  reply (frameCfgWord s.regs) s

/-- `RD` of FB_BASE (R28, R128). -/
def execRdFbBase (_lo : BitVec 2) (_data : Word) (s : State) : Host.Outcome State Fault Refusal :=
  reply s.regs.fbBase s

/-- `RD` of PAL_INDEX (R29, R128). -/
def execRdPalIndex (_lo : BitVec 2) (_data : Word) (s : State) : Host.Outcome State Fault Refusal :=
  reply (palIndexWord s.regs) s

/-- `RD` of PAL_DATA; the index does not move (R30, R124). -/
def execRdPalData (_lo : BitVec 2) (_data : Word) (s : State) : Host.Outcome State Fault Refusal :=
  reply (palDataWord s) s

/-- `RD` of PIX_COUNT (R31, R127). -/
def execRdPixCount (_lo : BitVec 2) (_data : Word) (s : State) : Host.Outcome State Fault Refusal :=
  reply s.regs.pixCount s

/-- `RD` of LZW_STATE (R32, R127). -/
def execRdLzwState (_lo : BitVec 2) (_data : Word) (s : State) : Host.Outcome State Fault Refusal :=
  reply (lzwStateWord s.regs) s

/-- `RD` of BYTES_IN (R33, R127). -/
def execRdBytesIn (_lo : BitVec 2) (_data : Word) (s : State) : Host.Outcome State Fault Refusal :=
  reply s.regs.bytesIn s

/-- `RD` of offset 0x34 (R34, R111). -/
def execRdReserved34 (_lo : BitVec 2) (_data : Word) (s : State) : Host.Outcome State Fault Refusal :=
  reply (0#32) s

/-- `RD` of the reserved offsets 0x38 and 0x3C (R34, R111). -/
def execRdReserved38 (_sel : BitVec 1) (_lo : BitVec 2) (_data : Word) (s : State) : Host.Outcome State Fault Refusal :=
  reply (0#32) s

/-- `RD` of the reserved offsets 0x40 to 0x7C (R34, R111). -/
def execRdReserved40 (_sel : BitVec 4) (_lo : BitVec 2) (_data : Word) (s : State) : Host.Outcome State Fault Refusal :=
  reply (0#32) s

/-- `RD` of the reserved offsets 0x80 to 0xFC (R34, R111). -/
def execRdReserved80 (_sel : BitVec 5) (_lo : BitVec 2) (_data : Word) (s : State) : Host.Outcome State Fault Refusal :=
  reply (0#32) s

end Sys2Proof.Machine
end

