-- ==== Sys2Proof/Machine/HostWrites.lean ====
section
/-! DEFINITION. The meanings of the register writes (R89, R112 to R125). Bits 33:32 of the word are ignored (R61). -/

namespace Sys2Proof.Machine

/-- A write that is ignored: it changes no state at all (R95, R112). -/
def ignored (s : State) : Host.Outcome State Fault Refusal :=
  .next s

/-- `WR CTRL` with neither command bit (R89). -/
def execWrCtrlNone (_lo : BitVec 2) (_data : Word) (s : State) : Host.Outcome State Fault Refusal :=
  ignored s

/-- `WR CTRL` with ABORT (R116); with START as well, ABORT acts first and START after it (R89, R277). -/
def execWrCtrlAbort (_lo : BitVec 2) (data : Word) (s : State) : Host.Outcome State Fault Refusal :=
  .next (if dataStart data then startFrame (abortFrame s) else abortFrame s)

/-- `WR CTRL` with START alone (R113, R114). -/
def execWrCtrlStart (_lo : BitVec 2) (_data : Word) (s : State) : Host.Outcome State Fault Refusal :=
  .next (startFrame s)

/-- `WR STATUS` (R117): write 1 to clear `DONE` and `ERR_BUSY`. -/
def execWrStatus (_lo : BitVec 2) (data : Word) (s : State) : Host.Outcome State Fault Refusal :=
  .next
    { s with
      regs :=
        { s.regs with
          done := s.regs.done && !dataClearDone data
          errBusy := s.regs.errBusy && !dataClearErr data } }

/-- `WR IRQ_EN` (R118). -/
def execWrIrqEn (_lo : BitVec 2) (data : Word) (s : State) : Host.Outcome State Fault Refusal :=
  .next { s with regs := { s.regs with doneIe := dataDoneIe data } }

/-- `WR FRAME_W` (R119). -/
def execWrFrameW (_lo : BitVec 2) (data : Word) (s : State) : Host.Outcome State Fault Refusal :=
  .next { s with regs := { s.regs with frameW := dataDimension data } }

/-- `WR FRAME_H` (R120). -/
def execWrFrameH (_lo : BitVec 2) (data : Word) (s : State) : Host.Outcome State Fault Refusal :=
  .next { s with regs := { s.regs with frameH := dataDimension data } }

/-- `WR FRAME_CFG` (R121). -/
def execWrFrameCfg (_lo : BitVec 2) (data : Word) (s : State) : Host.Outcome State Fault Refusal :=
  .next
    { s with
      regs :=
        { s.regs with
          interlace := dataInterlace data
          transpEn := dataTranspEn data
          transpIdx := dataTranspIdx data } }

/-- `WR FB_BASE` (R122). -/
def execWrFbBase (_lo : BitVec 2) (data : Word) (s : State) : Host.Outcome State Fault Refusal :=
  .next { s with regs := { s.regs with fbBase := data } }

/-- `WR PAL_INDEX` (R125). -/
def execWrPalIndex (_lo : BitVec 2) (data : Word) (s : State) : Host.Outcome State Fault Refusal :=
  .next { s with regs := { s.regs with palIndex := dataPalIndex data } }

/-- `WR PAL_DATA` (R123): while BUSY it is refused with `ERR_BUSY`, palette and index unchanged. -/
def execWrPalData (_lo : BitVec 2) (data : Word) (s : State) : Host.Outcome State Fault Refusal :=
  if s.phase = .idle then
    .next
      { s with
        pal := cellSet s.regs.palIndex.toNat (dataRgb data) s.pal
        regs := { s.regs with palIndex := s.regs.palIndex + 1 } }
  else .next { s with regs := { s.regs with errBusy := true } }

/-- `WR` of ID (R112). -/
def execWrId (_lo : BitVec 2) (_data : Word) (s : State) : Host.Outcome State Fault Refusal :=
  ignored s

/-- `WR` of PIX_COUNT (R112). -/
def execWrPixCount (_lo : BitVec 2) (_data : Word) (s : State) : Host.Outcome State Fault Refusal :=
  ignored s

/-- `WR` of LZW_STATE (R112). -/
def execWrLzwState (_lo : BitVec 2) (_data : Word) (s : State) : Host.Outcome State Fault Refusal :=
  ignored s

/-- `WR` of BYTES_IN (R112). -/
def execWrBytesIn (_lo : BitVec 2) (_data : Word) (s : State) : Host.Outcome State Fault Refusal :=
  ignored s

/-- `WR` of the reserved offset 0x34 (R112). -/
def execWrReserved34 (_lo : BitVec 2) (_data : Word) (s : State) : Host.Outcome State Fault Refusal :=
  ignored s

/-- `WR` of the reserved offsets 0x38 and 0x3C (R34, R112). -/
def execWrReserved38 (_sel : BitVec 1) (_lo : BitVec 2) (_data : Word) (s : State) : Host.Outcome State Fault Refusal :=
  ignored s

/-- `WR` of the reserved offsets 0x40 to 0x7C (R34, R112). -/
def execWrReserved40 (_sel : BitVec 4) (_lo : BitVec 2) (_data : Word) (s : State) : Host.Outcome State Fault Refusal :=
  ignored s

/-- `WR` of the reserved offsets 0x80 to 0xFC (R34, R112). -/
def execWrReserved80 (_sel : BitVec 5) (_lo : BitVec 2) (_data : Word) (s : State) : Host.Outcome State Fault Refusal :=
  ignored s

end Sys2Proof.Machine
end

