-- ==== Sys2Proof/Machine/Stream.lean ====
section
/-! DEFINITION. The meanings of the stream tokens (R81, R82). Each runs in the engine step that has just taken the token's
byte (log 14): a sub-block in a FILL or TAIL step is a refill (R153) and in a DRAIN step it is skipped (R158, R245); the
root byte is taken by the ROOT step (R232). -/

namespace Sys2Proof.Machine

/-- SUBBLOCK.TERMINATOR. In a refill no bits are added, `exhausted` is set and the call reads on (R153, R155); in DRAIN the
frame finishes with the cause held in `pend` (R245). -/
def execSubTerminator (s : State) : Host.Outcome State Fault Refusal :=
  match s.phase with
  | .fill => readOn (setExhausted s)
  | .tail => readOn (setExhausted s)
  | .drain => .next (finish s.pend (setExhausted s))
  | .idle => .fault .outOfPhase
  | .root => .fault .outOfPhase

/-- A data sub-block in a refill (R153, R156): its payload is appended whole and the call reads on. -/
def refillAndReadOn (n : Byte) (s : State) : Host.Outcome State Fault Refusal :=
  match readPayload n s with
  | (.eof, s1) => settle (raiseCorrupt .inputEof s1).1 (raiseCorrupt .inputEof s1).2
  | (.block _ data, s1) => readOn { s1 with rd := appendData s1.rd data }

/-- A data sub-block in DRAIN (R158, R245): its payload is skipped. -/
def skipPayload (n : Byte) (s : State) : Host.Outcome State Fault Refusal :=
  match readPayload n s with
  | (.eof, s1) => .next (finish .inputEof s1)
  | (.block _ _, s1) => .next s1

/-- SUBBLOCK.DATA. -/
def execSubData (n : Byte) (s : State) : Host.Outcome State Fault Refusal :=
  match s.phase with
  | .fill => refillAndReadOn n s
  | .tail => refillAndReadOn n s
  | .drain => skipPayload n s
  | .idle => .fault .outOfPhase
  | .root => .fault .outOfPhase

/-- `LZW_STATE.ROOT_BYTE` takes the root byte as read (R232). -/
def setRootByte (r : Byte) (s : State) : State :=
  { s with regs := { s.regs with lzwState := { s.regs.lzwState with rootByte := r } } }

/-- A valid root byte (R232, R233): `Reinit`, `Init`, and on to FILL, or to TAIL for a frame of no pixels. -/
def startDecoding (r : Byte) (s : State) : State :=
  { reinit s with lzw := initLzw r s.lzw, phase := if s.cfg.total = 0 then .tail else .fill }

/-- ROOT.VALID (R232, R246). -/
def execRootValid (r : Byte) (s : State) : Host.Outcome State Fault Refusal :=
  match s.phase with
  | .root => .next (updateLzwState (startDecoding r (setRootByte r s)))
  | .idle => .fault .outOfPhase
  | .fill => .fault .outOfPhase
  | .tail => .fault .outOfPhase
  | .drain => .fault .outOfPhase

/-- ROOT.INVALID (R232): `Reinit`, then drain with BAD_ROOT pending. `Init` has not run, so `LZW_STATE` keeps its zeros
(R246). -/
def execRootInvalid (r : Byte) (s : State) : Host.Outcome State Fault Refusal :=
  match s.phase with
  | .root => .next { reinit (setRootByte r s) with pend := .badRoot, phase := .drain }
  | .idle => .fault .outOfPhase
  | .fill => .fault .outOfPhase
  | .tail => .fault .outOfPhase
  | .drain => .fault .outOfPhase

end Sys2Proof.Machine
end

