-- ==== Sys2Proof/Machine/Dispatch.lean ====
section
/-! DEFINITION. `exec`: one arm per row of spec/opcode_table.json, each one call of that row's meaning. -/

namespace Sys2Proof.Machine

def exec (i : Instr) (s : State) : Host.Outcome State Fault Refusal :=
  match i with
  | .clear => Sys2Proof.Machine.execClear s
  | .endCode => Sys2Proof.Machine.execEnd s
  | .first c => Sys2Proof.Machine.execFirst c s
  | .badFirst c => Sys2Proof.Machine.execBadFirst c s
  | .literal c => Sys2Proof.Machine.execLiteral c s
  | .defined c => Sys2Proof.Machine.execDefined c s
  | .kwkwk c => Sys2Proof.Machine.execKwkwk c s
  | .subTerminator => Sys2Proof.Machine.execSubTerminator s
  | .subData n => Sys2Proof.Machine.execSubData n s
  | .rootValid r => Sys2Proof.Machine.execRootValid r s
  | .rootInvalid r => Sys2Proof.Machine.execRootInvalid r s
  | .rdId lo data => Sys2Proof.Machine.execRdId lo data s
  | .rdCtrl lo data => Sys2Proof.Machine.execRdCtrl lo data s
  | .rdStatus lo data => Sys2Proof.Machine.execRdStatus lo data s
  | .rdIrqEn lo data => Sys2Proof.Machine.execRdIrqEn lo data s
  | .rdFrameW lo data => Sys2Proof.Machine.execRdFrameW lo data s
  | .rdFrameH lo data => Sys2Proof.Machine.execRdFrameH lo data s
  | .rdFrameCfg lo data => Sys2Proof.Machine.execRdFrameCfg lo data s
  | .rdFbBase lo data => Sys2Proof.Machine.execRdFbBase lo data s
  | .rdPalIndex lo data => Sys2Proof.Machine.execRdPalIndex lo data s
  | .rdPalData lo data => Sys2Proof.Machine.execRdPalData lo data s
  | .rdPixCount lo data => Sys2Proof.Machine.execRdPixCount lo data s
  | .rdLzwState lo data => Sys2Proof.Machine.execRdLzwState lo data s
  | .rdBytesIn lo data => Sys2Proof.Machine.execRdBytesIn lo data s
  | .rdReserved34 lo data => Sys2Proof.Machine.execRdReserved34 lo data s
  | .rdReserved38 sel lo data => Sys2Proof.Machine.execRdReserved38 sel lo data s
  | .rdReserved40 sel lo data => Sys2Proof.Machine.execRdReserved40 sel lo data s
  | .rdReserved80 sel lo data => Sys2Proof.Machine.execRdReserved80 sel lo data s
  | .wrId lo data => Sys2Proof.Machine.execWrId lo data s
  | .wrCtrlNone lo data => Sys2Proof.Machine.execWrCtrlNone lo data s
  | .wrCtrlAbort lo data => Sys2Proof.Machine.execWrCtrlAbort lo data s
  | .wrCtrlStart lo data => Sys2Proof.Machine.execWrCtrlStart lo data s
  | .wrStatus lo data => Sys2Proof.Machine.execWrStatus lo data s
  | .wrIrqEn lo data => Sys2Proof.Machine.execWrIrqEn lo data s
  | .wrFrameW lo data => Sys2Proof.Machine.execWrFrameW lo data s
  | .wrFrameH lo data => Sys2Proof.Machine.execWrFrameH lo data s
  | .wrFrameCfg lo data => Sys2Proof.Machine.execWrFrameCfg lo data s
  | .wrFbBase lo data => Sys2Proof.Machine.execWrFbBase lo data s
  | .wrPalIndex lo data => Sys2Proof.Machine.execWrPalIndex lo data s
  | .wrPalData lo data => Sys2Proof.Machine.execWrPalData lo data s
  | .wrPixCount lo data => Sys2Proof.Machine.execWrPixCount lo data s
  | .wrLzwState lo data => Sys2Proof.Machine.execWrLzwState lo data s
  | .wrBytesIn lo data => Sys2Proof.Machine.execWrBytesIn lo data s
  | .wrReserved34 lo data => Sys2Proof.Machine.execWrReserved34 lo data s
  | .wrReserved38 sel lo data => Sys2Proof.Machine.execWrReserved38 sel lo data s
  | .wrReserved40 sel lo data => Sys2Proof.Machine.execWrReserved40 sel lo data s
  | .wrReserved80 sel lo data => Sys2Proof.Machine.execWrReserved80 sel lo data s

end Sys2Proof.Machine
end

