-- ==== Sys2Proof/Machine/Engine.lean ====
section
/-! DEFINITION. The engine's steps (R230, R231): the fetch of a step's first token from the input or from the bit buffer,
the run of it by `exec`, and the wait for input (R62, R312). Also the moves of the host's side. -/

namespace Sys2Proof.Machine

/-- What an engine step begins with. -/
inductive Fetch where
  /-- The engine has no step (R230: IDLE). -/
  | noStep
  /-- A token, taken from its stream, with the state after the taking. -/
  | token (i : Instr) (s : State)
  /-- A `NextIndex` result that needs no token (R155, R184, R198, R202). -/
  | result (r : IndexResult) (s : State)
  /-- The step is over without a token (R232, R245). -/
  | over (s : State)
  deriving DecidableEq, Repr

/-- The next token of a `NextIndex` call that must read a code: the code, when the buffer holds `codeSize` bits; the end
of the data, once the terminator has been read (R155); else the length byte of the sub-block that refills the buffer
(R153), or the end of the input (R156). -/
def fetchCode (s : State) : Fetch :=
  if s.lzw.codeSize.toNat ≤ s.rd.nbits.toNat then
    .token (decode (codeContext s.lzw) (.code (takeCode s.lzw.codeSize.toNat s.rd).1))
      { s with rd := (takeCode s.lzw.codeSize.toNat s.rd).2 }
  else if s.rd.exhausted then .result (streamEnded s).1 (streamEnded s).2
  else
    match takeByte s with
    | (none, s1) => .result (raiseCorrupt .inputEof s1).1 (raiseCorrupt .inputEof s1).2
    | (some n, s1) => .token (decode (codeContext s1.lzw) (.sub n)) s1

/-- The start of a FILL or TAIL step (R184): a held result, or the next token. -/
def fetchIndex (s : State) : Fetch :=
  match heldIndex s with
  | some (r, s1) => .result r s1
  | none => fetchCode s

/-- The start of a ROOT step (R232). -/
def fetchRoot (s : State) : Fetch :=
  match takeByte s with
  | (none, s1) => .over (finish .inputEof s1)
  | (some r, s1) => .token (decode (codeContext s1.lzw) (.root r)) s1

/-- The start of a DRAIN step (R245): `Discard`, then the next sub-block's length byte unless the terminator has been
read (R158). -/
def fetchDrain (s : State) : Fetch :=
  if (discard s).rd.exhausted then .over (finish s.pend (discard s))
  else
    match takeByte (discard s) with
    | (none, s1) => .over (finish .inputEof s1)
    | (some n, s1) => .token (decode (codeContext s1.lzw) (.sub n)) s1

/-- What the engine's next step begins with, by phase (R230). -/
def fetch (s : State) : Fetch :=
  match s.phase with
  | .idle => .noStep
  | .root => fetchRoot s
  | .fill => fetchIndex s
  | .tail => fetchIndex s
  | .drain => fetchDrain s

/-- One engine step (R230), on an input that ends after the bytes presented. -/
def engineStep (s : State) : Host.Outcome State Fault Refusal :=
  match fetch s with
  | .noStep => .next s
  | .token i s1 => exec i s1
  | .result r s1 => settle r s1
  | .over s1 => .next s1

/-- An engine step from `s` to `t` met the end of the input: every such step finishes the frame with INPUT_EOF (R156,
R187, R232, R243, R245), and no step finishes it so for another reason. -/
def ranOutOfInput (s t : State) : Bool :=
  decide (s.phase ≠ .idle) && decide (t.phase = .idle) && decide (t.regs.cause = .inputEof)

/-- The engine's move: its next step, or none while the step would need a byte that the host has neither presented nor
ruled out with `in_eof` (R62, R312; log 2). -/
def engineMove (s : State) : Host.Outcome State Fault Refusal :=
  match engineStep s with
  | .next t => if ranOutOfInput s t && !s.inEof then .next s else .next t
  | .fault f => .fault f
  | .refused r => .refused r

/-- Take the move at the head of the schedule (R7). The state given has it removed already; `waiting` still has it. -/
def runMove (m : Move) (waiting s : State) : Host.Outcome State Fault Refusal :=
  match m with
  | .op w => exec (decode (codeContext s.lzw) (.host w)) s
  | .feed bytes => .next (feedInput bytes s)
  | .endInput => .next (endInput s)
  | .withdraw n => .next (withdrawInput n s)
  | .engine => engineMove s
  | .waitDone => if s.regs.done then .next s else engineMove waiting
  | .readFrame a => .next (readFrame a s)
  | .reset => .next (resetBlock s)

/-- One atomic event of the interleaving (R7): the move the schedule names, or, when it names none, the engine's. -/
def nextEvent (s : State) : Host.Outcome State Fault Refusal :=
  match s.agenda with
  | [] => engineMove s
  | m :: rest => runMove m s { s with agenda := rest }

/-- Put a move at the head of the schedule. -/
def schedule (m : Move) (s : State) : State :=
  { s with agenda := m :: s.agenda }

/-- Place a sub-block's length byte, with a payload of zeros, where a DRAIN step takes it (log 10). -/
def placeSub (n : Byte) (s : State) : State :=
  schedule .engine
    { s with
      phase := .drain
      rd := { s.rd with exhausted := false }
      input := n :: List.replicate n.toNat 0 }

/-- Place a code where a FILL step takes it: 12 bits in the buffer, the LZW unit as after `Init(2)`, a clear code and two
codes 0 (so that it is not fresh and slot 6 is defined), read at width 12 (log 10). -/
def placeCode (c : Code) (s : State) : State :=
  schedule .engine
    { s with
      phase := .fill
      rd := { acc := c.setWidth 2051, nbits := 12, exhausted := false }
      lzw :=
        { insertEntry { initLzw 2 s.lzw with fresh := false, oldCode := 0, firstCode := 0 } with codeSize := 12 }
      input := [0] }

/-- Place a bare word of the opcode table where the next step takes it (log 9, log 10). -/
def placeWord (s : State) (nbits w : Nat) : State :=
  if nbits = 8 then placeSub (BitVec.ofNat 8 w) s
  else if nbits = 12 ∨ nbits = 16 then placeCode (BitVec.ofNat 12 w) s
  else schedule (.op (BitVec.ofNat 41 w)) s

end Sys2Proof.Machine
end

