-- ==== Sys2Proof/Machine/Step.lean ====
section
/-! DEFINITION. `step`: one atomic event of the interleaving (R7, R230). -/

namespace Sys2Proof.Machine

/-- One step of the machine. -/
def step (s : State) : Host.Outcome State Fault Refusal :=
  nextEvent s

/-- `s` with a bare word of the opcode table placed where the next step takes it. -/
def State.withFetchWord (s : State) (nbits w : Nat) : State :=
  placeWord s nbits w

end Sys2Proof.Machine
end

