-- ==== Sys2Proof/Safety.lean ====
section
/-! DEFINITION. The terms in which claims are stated: the steps of 43_raster_pipeline.md as their rules write them, the
invariants of the machine, the path a chain walk takes, the order in which rows are filled, and what a frame's end shows. -/

namespace Sys2Proof.Machine

/-! ### The engine's steps as R232, R234, R244 and R245 write them -/

/-- `RootStep()` (R232). -/
def rootStep (s : State) : State :=
  match takeByte s with
  | (none, s1) => finish .inputEof s1
  | (some b, s1) =>
    if b.toNat < Config.rootMin ∨ Config.rootMax < b.toNat then
      { reinit (setRootByte b s1) with pend := .badRoot, phase := .drain }
    else updateLzwState (startDecoding b (setRootByte b s1))

/-- `FillStep()` (R234). -/
def fillStep (s : State) : Option State :=
  (nextIndex s).map fun r => updateLzwState (fillResult r.1 r.2)

/-- `TailStep()` (R244). -/
def tailStep (s : State) : Option State :=
  (nextIndex s).map fun r => updateLzwState (tailResult r.1 r.2)

/-- `DrainStep()` (R245). -/
def drainStep (s : State) : State :=
  match drainRead (discard s) with
  | (.terminated, s1) => finish s1.pend s1
  | (.more, s1) => s1
  | (.eof, s1) => finish .inputEof s1

/-- The step of the current phase (R230). -/
def ruleStep (s : State) : Option State :=
  match s.phase with
  | .idle => some s
  | .root => some (rootStep s)
  | .fill => fillStep s
  | .tail => tailStep s
  | .drain => some (drainStep s)

/-! ### Invariants -/

/-- The engine is decoding codes: `Init` has run for this frame and its result is still open. -/
def decoding (s : State) : Bool :=
  decide (s.phase = .fill) || decide (s.phase = .tail)

/-- While BUSY, `DONE` and `CAUSE` read 0 (R23, R126). -/
def quietWhileBusy (s : State) : Bool :=
  decide (s.phase = .idle) || (!s.regs.done && decide (s.regs.cause = .ok))

/-- The keyed lists of the state keep their canonical form. -/
def storageCanonical (s : State) : Bool :=
  s.mem.wf && keysRising s.pal && keysRising s.lzw.table

/-- The reader holds at most `BITBUF_CAP` bits, and no bit above `acc[nbits-1]` is set (R154). -/
def readerBounded (r : Reader) : Bool :=
  decide (r.nbits.toNat ≤ Config.bitBufCap) && decide (r.acc.toNat < 2 ^ r.nbits.toNat)

/-- The ranges of the LZW scalars once `Init` has run (R87, R160, R197, R201). -/
def lzwInRange (l : Lzw) : Bool :=
  decide (Config.rootMin ≤ l.rootSize.toNat) && decide (l.rootSize.toNat ≤ Config.rootMax)
    && decide (l.clearCode.toNat = 2 ^ l.rootSize.toNat)
    && decide (l.endCode.toNat = l.clearCode.toNat + 1)
    && decide (l.rootSize.toNat + 1 ≤ l.codeSize.toNat) && decide (l.codeSize.toNat ≤ Config.maxCodeWidth)
    && decide (l.maxCodeSize.toNat = 2 ^ l.codeSize.toNat)
    && decide (l.clearCode.toNat + 2 ≤ l.maxCode.toNat) && decide (l.maxCode.toNat ≤ l.maxCodeSize.toNat)
    && (decide (l.maxCode.toNat < l.maxCodeSize.toNat) || decide (l.maxCodeSize.toNat = Config.tableSize))
    && (!l.fresh || decide (l.maxCode.toNat = l.clearCode.toNat + 2))

/-- The causes that DRAIN can hold in `pend` (R47, R231): BAD_ROOT and the LZW causes. -/
def drainCauses : List Cause :=
  [.badRoot, .badTerminator, .lzwSelfPrefix, .lzwUndefinedCode, .lzwStackOverflow, .lzwBadFirstCode]

/-- The engine's invariant: the reader is bounded (R154); while codes are decoded the LZW scalars are in range (R201), no
result is held yet (R202, R231) and the stack is within its depth (R39); in DRAIN a cause is pending (R47). -/
def engineInv (s : State) : Bool :=
  readerBounded s.rd
    && (!decoding s
      || (lzwInRange s.lzw && decide (s.lzw.result = .none) && decide (s.lzw.stack.length ≤ Config.stackDepth)))
    && (!decide (s.phase = .drain) || decide (s.pend ∈ drainCauses))

/-- Slot `n` has been written with a suffix below `clearCode` and a prefix that is a data code (R196, R203, R205). -/
def slotWritten (l : Lzw) (n : Nat) : Bool :=
  match cellGet n l.table with
  | none => false
  | some slot =>
    decide (slot.suf.toNat < l.clearCode.toNat) && decide (slot.pre.toNat ≠ l.clearCode.toNat)
      && decide (slot.pre.toNat ≠ l.endCode.toNat)

/-- Every defined slot has been written since the last clear (R196), every symbol on the stack is a root (R205), and the
previous code and first symbol are a data code and a root (R203, R205). -/
def symbolsAreRoots (l : Lzw) : Bool :=
  (l.stack.all fun v => decide (v.toNat < l.clearCode.toNat))
    && ((List.range l.maxCode.toNat).all fun n => decide (n < l.clearCode.toNat + 2) || slotWritten l n)
    && (l.fresh
      || (decide (l.firstCode.toNat < l.clearCode.toNat) && decide (l.oldCode.toNat ≠ l.clearCode.toNat)
        && decide (l.oldCode.toNat ≠ l.endCode.toNat)))

/-- The invariant of the table's contents, with the engine's. -/
def tableInv (s : State) : Bool :=
  engineInv s && (!decoding s || symbolsAreRoots s.lzw)

/-! ### Raster order -/

/-- How many rows of a frame of height `h` are filled before row `row` of pass `pass` (R237): pass 1 has the rows 0 modulo
8, pass 2 those 4 modulo 8, pass 3 those 2 modulo 4, pass 4 the odd rows. -/
def rowsBefore (h row pass : Nat) : Nat :=
  if pass = 1 then row / 8
  else if pass = 2 then (h + 7) / 8 + row / 8
  else if pass = 3 then (h + 7) / 8 + (h + 3) / 8 + row / 4
  else (h + 7) / 8 + (h + 3) / 8 + (h + 1) / 4 + row / 2

/-- The row belongs to its pass (R236, R237). -/
def rowInPass (row pass : Nat) : Bool :=
  (decide (pass = 1) && decide (row % 8 = 0)) || (decide (pass = 2) && decide (row % 8 = 4))
    || (decide (pass = 3) && decide (row % 4 = 2)) || (decide (pass = 4) && decide (row % 2 = 1))

/-- The latched copies agree with each other (R35). -/
def cfgConsistent (c : FrameCfg) : Bool :=
  decide (c.total.toNat = c.width.toNat * c.height.toNat) && decide (c.bpp = if c.transpEn then 4 else 3)

/-- The cursor stands on fill position `PIX_COUNT` (R237): inside the frame, in sequential or in interlaced order. -/
def cursorOnPosition (s : State) : Bool :=
  decide (s.cur.row.toNat < s.cfg.height.toNat) && decide (s.cur.col.toNat < s.cfg.width.toNat)
    && (if s.cfg.interlace then
        rowInPass s.cur.row.toNat s.cur.pass.toNat
          && decide (s.regs.pixCount.toNat =
            rowsBefore s.cfg.height.toNat s.cur.row.toNat s.cur.pass.toNat * s.cfg.width.toNat + s.cur.col.toNat)
      else decide (s.regs.pixCount.toNat = s.cur.row.toNat * s.cfg.width.toNat + s.cur.col.toNat))

/-- The raster invariant: a frame about to be decoded has written nothing and stands at its first pixel, a FILL phase has
pixels left and stands on the next, a TAIL phase has written all of them (R231, R234, R237, R241). -/
def rasterInv (s : State) : Bool :=
  match s.phase with
  | .idle => true
  | .root =>
    cfgConsistent s.cfg && decide (s.regs.pixCount = 0)
      && decide (s.cur = { row := 0, col := 0, pass := 1 })
  | .fill => cfgConsistent s.cfg && decide (s.regs.pixCount.toNat < s.cfg.total.toNat) && cursorOnPosition s
  | .tail => cfgConsistent s.cfg && decide (s.regs.pixCount = s.cfg.total)
  | .drain => cfgConsistent s.cfg && decide (s.regs.pixCount.toNat ≤ s.cfg.total.toNat)

/-- The rows a frame one pixel wide fills, in order: the next `n` rows from a cursor. -/
def nextRows (f : FrameCfg) : Nat → Cursor → List Nat
  | 0, _ => []
  | n + 1, c => c.row.toNat :: nextRows f n (advance f c)

/-- The interlaced row order of a frame of height `h` (R237). -/
def interlacedRows (h : Nat) : List Nat :=
  nextRows
    { State.reset.cfg with width := 1, height := BitVec.ofNat 16 h, interlace := true }
    h { row := 0, col := 0, pass := 1 }

/-! ### The register window -/

/-- What the word at each place of the register window reads as (R21 to R34): `idx` is bits 7:2 of the offset. -/
def registerWord (idx : BitVec 6) (s : State) : Word :=
  if idx = 0x00 then 0x4A494601#32
  else if idx = 0x02 then statusWord s
  else if idx = 0x03 then irqEnWord s.regs
  else if idx = 0x04 then frameWWord s.regs
  else if idx = 0x05 then frameHWord s.regs
  else if idx = 0x06 then frameCfgWord s.regs
  else if idx = 0x07 then s.regs.fbBase
  else if idx = 0x08 then palIndexWord s.regs
  else if idx = 0x09 then palDataWord s
  else if idx = 0x0A then s.regs.pixCount
  else if idx = 0x0B then lzwStateWord s.regs
  else if idx = 0x0C then s.regs.bytesIn
  else 0#32

/-! ### Chain walks -/

/-- A chain walk (R193) that starts at code `c` gets to code `d`, having pushed the symbols `syms` in this order: every
slot on the way is defined, and none has itself as prefix. -/
inductive WalksTo (resets : Nat) (l : Lzw) : Code → List Byte → Code → Prop where
  | here (c : Code) : WalksTo resets l c [] c
  | through (c : Code) (syms : List Byte) (d : Code) :
      l.clearCode.toNat ≤ c.toNat → c.toNat < l.maxCode.toNat → (readSlot resets l c).pre ≠ c →
      WalksTo resets l (readSlot resets l c).pre syms d →
      WalksTo resets l c ((readSlot resets l c).suf :: syms) d

/-- No chain of the table runs in a circle of two slots or more (R200): every walk from a defined slot comes to a root, to
a slot not written since the last clear, or to a slot whose prefix is itself. And the previous code, once there is one, is
not yet defined or its chain comes to a root (the cases of R200). -/
def chainsStop (resets : Nat) (l : Lzw) : Prop :=
  (∀ c : Code, l.clearCode.toNat + 2 ≤ c.toNat → c.toNat < l.maxCode.toNat →
    ∃ syms d, WalksTo resets l c syms d
      ∧ (d.toNat < l.clearCode.toNat ∨ l.maxCode.toNat ≤ d.toNat ∨ (readSlot resets l d).pre = d))
  ∧ (l.fresh = false →
    l.maxCode.toNat ≤ l.oldCode.toNat
      ∨ ∃ syms d, WalksTo resets l l.oldCode syms d ∧ d.toNat < l.clearCode.toNat)

/-! ### Progress -/

/-- What a frame still has before it: bits of buffer and input, symbols on the stack, and its completion (R313). Every
engine step makes it smaller. -/
def workLeft (s : State) : Nat :=
  (Config.stackDepth + 1) * (s.rd.nbits.toNat + 8 * s.input.length) + s.lzw.stack.length
    + (if s.phase = .idle then 0 else 1)

/-! ### Ends of a FILL or TAIL step -/

/-- The registers with `LZW_STATE` showing the LZW state (R246). -/
def snapshot (r : HostRegs) (l : Lzw) : HostRegs :=
  { r with lzwState := { codeSize := l.codeSize, maxCode := l.maxCode, fresh := l.fresh, rootByte := r.lzwState.rootByte } }

/-- The end of a FILL or TAIL step that got index `i`: a pixel in FILL (R234), `EXTRA_DATA` in TAIL (R244). -/
def indexDone (i : Byte) (s : State) : State :=
  if s.phase = .fill then updateLzwState (toTailWhenFull (writePixel i s)) else updateLzwState { s with extra := true }

/-- The end of a FILL or TAIL step whose data ended: SHORT_DATA in FILL (R242), OK in TAIL (R244). -/
def dataDone (s : State) : State :=
  { s with
    lzw := { s.lzw with result := .endOfData }
    phase := .idle
    regs := snapshot { s.regs with cause := if s.phase = .fill then .shortData else .ok, done := true } s.lzw }

/-- The end of a FILL or TAIL step in which `Corrupt(c)` was raised (R202), for `c` other than INPUT_EOF (R243). -/
def corruptDone (c : Cause) (s : State) : State :=
  { s with
    lzw := { s.lzw with stack := [], result := .corrupt c }
    pend := c
    phase := .drain
    regs := snapshot s.regs s.lzw }

/-- The end of a FILL or TAIL step in which the input ended (R185, R202, R243). -/
def eofDone (s : State) : State :=
  { s with
    lzw := { s.lzw with stack := [], result := .corrupt .inputEof }
    phase := .idle
    regs := snapshot { s.regs with cause := .inputEof, done := true } s.lzw }

/-- The engine needs a byte for its next step, and the buffer cannot give what it needs (R62, R153, R158, R232). -/
def needsByte (s : State) : Bool :=
  decide (s.phase = .root) || (decide (s.phase = .drain) && !s.rd.exhausted)
    || (decoding s && decide (s.lzw.result = .none) && decide (s.lzw.stack = [])
      && decide (s.rd.nbits.toNat < s.lzw.codeSize.toNat) && !s.rd.exhausted)

/-! ### What the end of a frame shows -/

/-- The observation at the end of a frame (R130), all but the footprint's bytes, which `frameByte` reads. -/
structure FrameEnd where
  status : Word
  pixCount : Word
  bytesIn : Word
  lzwState : Word
  inputLeft : List Byte
  deriving DecidableEq, Repr

/-- The observation of R130 in a state. -/
def frameEnd (s : State) : FrameEnd where
  status := statusWord s
  pixCount := s.regs.pixCount
  bytesIn := s.regs.bytesIn
  lzwState := lzwStateWord s.regs
  inputLeft := s.input

end Sys2Proof.Machine
end

