-- ==== Sys2Proof/Certificates/Slice0/Obligations.lean ====
section
/-! DEFINITION. The statements for the provers, in the order of OBLIGATIONS.json. Each docstring names the rule of spec/ it
comes from; `log n` is notes/assumptions/<n>.md. -/

open Sys2Proof Sys2Proof.Machine

/-- R7, R110: a host operation is one atomic event of the interleaving. -/
def Obligations.StepRunsHostOperation : Prop :=
  ∀ (s : State) (w : HostWord) (rest : List Move), s.agenda = .op w :: rest →
    step s = exec (decode (codeContext s.lzw) (.host w)) { s with agenda := rest }

/-- R230: the engine performs one step at a time. THE MODEL'S CHOICES: that a step which lacks a byte takes and counts none of
the bytes presented, where R62 and R312 say only that it has no move (log 2); the split into fetch and exec (log 14); the
grants by an empty schedule, by `engine` and by `waitDone` (log 1, log 28). -/
def Obligations.StepRunsFetchedToken : Prop :=
  ∀ (s s1 : State) (i : Instr), fetch s = .token i s1 →
    (s.agenda = [] ∨ (s.regs.done = false ∧ ∃ rest, s.agenda = .waitDone :: rest) →
      (∀ t, exec i s1 = .next t → step s = if ranOutOfInput s t && !s.inEof then .next s else .next t)
      ∧ ∀ f, exec i s1 = .fault f → step s = .fault f)
    ∧ ∀ s0 : State, s0.agenda = .engine :: s.agenda → { s0 with agenda := s.agenda } = s →
      (∀ t, exec i s1 = .next t → step s0 = if ranOutOfInput s t && !s.inEof then .next s else .next t)
      ∧ ∀ f, exec i s1 = .fault f → step s0 = .fault f

/-- R232, R184, R198, R202, R153, R155, R185, R245: what each step takes first. That the state seen by exec is the one after
the taking is the model's (log 14). -/
def Obligations.FetchTakesTheNextToken : Prop :=
  ∀ s : State,
    (decoding s = true → s.lzw.result = .endOfData → fetch s = .result .endOfData s)
    ∧ (∀ c, decoding s = true → s.lzw.result = .corrupt c → fetch s = .result (.corrupt c) s)
    ∧ (∀ v rest, decoding s = true → s.lzw.result = .none → s.lzw.stack = v :: rest →
      engineStep s = .next (indexDone v { s with lzw := { s.lzw with stack := rest } }))
    ∧ (decoding s = true → s.lzw.result = .none → s.lzw.stack = [] → s.rd.nbits.toNat < s.lzw.codeSize.toNat →
      s.rd.exhausted = true → engineStep s = .next (dataDone { s with noEnd := true }))
    ∧ (decoding s = true → s.lzw.result = .none → s.lzw.stack = [] → s.lzw.codeSize.toNat ≤ s.rd.nbits.toNat →
      fetch s = .token (decodeCode (codeContext s.lzw) (takeCode s.lzw.codeSize.toNat s.rd).1)
        { s with rd := (takeCode s.lzw.codeSize.toNat s.rd).2 })
    ∧ ∀ (b : Byte) (rest : List Byte), s.input = b :: rest →
    (s.phase = .root →
      fetch s = .token (decodeRoot b)
        { s with input := rest, regs := { s.regs with bytesIn := s.regs.bytesIn + 1 } })
    ∧ (decoding s = true → s.lzw.result = .none → s.lzw.stack = [] → s.rd.nbits.toNat < s.lzw.codeSize.toNat →
      s.rd.exhausted = false →
      fetch s = .token (decodeSub b)
        { s with input := rest, regs := { s.regs with bytesIn := s.regs.bytesIn + 1 } })
    ∧ (s.phase = .drain → s.rd.exhausted = false →
      fetch s = .token (decodeSub b)
        { s with
          input := rest
          regs := { s.regs with bytesIn := s.regs.bytesIn + 1 }
          rd := { s.rd with acc := 0, nbits := 0 } })

/-- R62: "A step that needs a byte, finds none and finds no end-of-input has no move until the host acts." R104: IN appends
bytes, EOF asserts in_eof. THE MODEL'S CHOICES: that a waiting step leaves the whole state as it is (log 2), that a feed
withdraws in_eof (log 20), the move waitDone (log 28), the withdrawal of bytes not taken (log 29). -/
def Obligations.StepWaitsForInput : Prop :=
  (∀ s : State, s.agenda = [] → s.input = [] → needsByte s = true →
    (s.inEof = false → step s = .next s)
    ∧ (s.inEof = true → ∃ t, step s = .next t
        ∧ t.phase = .idle ∧ t.regs.cause = .inputEof ∧ t.regs.done = true
        ∧ t.input = [] ∧ t.regs.bytesIn = s.regs.bytesIn ∧ t.mem = s.mem))
  ∧ ∀ (s : State) (rest : List Move),
    (∀ bytes, s.agenda = .feed bytes :: rest →
      step s = .next { s with agenda := rest, input := s.input ++ bytes, inEof := false })
    ∧ (s.agenda = .endInput :: rest → step s = .next { s with agenda := rest, inEof := true })
    ∧ (∀ n, s.agenda = .withdraw n :: rest → step s = .next { s with agenda := rest, input := s.input.drop n })
    ∧ (s.agenda = .waitDone :: rest → s.regs.done = true → step s = .next { s with agenda := rest })

/-- R300, R301; that the ports and the schedule stay is the model's choice (log 21). -/
def Obligations.ResetEvent : Prop :=
  ∀ (s : State) (rest : List Move), s.agenda = .reset :: rest → ∃ t, step s = .next t
    ∧ t = { State.reset with
        mem := s.mem, input := s.input, inEof := s.inEof, rdata := s.rdata, frameReply := s.frameReply
        agenda := rest, draws := s.draws, resets := s.resets + 1 }
    ∧ irq t = false ∧ busy t = false ∧ statusWord t = 0#32

/-- R70: "The model gives it any value (a draw)." The earlier contents of memory are a free value (log 5). -/
def Obligations.HostReadsOfFrameMemory : Prop :=
  ∀ (s : State) (a : Word) (rest : List Move), s.agenda = .readFrame a :: rest →
    (s.phase ≠ .idle → inFootprint s.cfg a = true →
      step s = .next { s with agenda := rest, frameReply := Config.frameDraw s.draws, draws := s.draws + 1 })
    ∧ (s.phase = .idle ∨ inFootprint s.cfg a = false →
      step s = .next { s with agenda := rest, frameReply := (memRead s.mem a).getD (Config.frameInit a.toNat) })

/-- R81, R82, R85, R88: no bit of an encoding is dropped. That a constructor carries the ignored bits is the model's (log 16). -/
def Obligations.DecodeOfEncodeIsTheInstruction : Prop :=
  ∀ (k : CodeContext) (i : Instr), k.legal = true → i.wf k = true → decode k (encode k i) = i

/-- R95: "Illegal host operations do not exist"; R81, R82. -/
def Obligations.EveryWordAndByteHasAMeaning : Prop :=
  ∀ (k : CodeContext) (w : HostWord) (b : Byte),
    ((decode k (.host w)).wf k = true ∧ encode k (decode k (.host w)) = .host w)
    ∧ ((decode k (.sub b)).wf k = true ∧ encode k (decode k (.sub b)) = .sub b)
    ∧ ((decode k (.root b)).wf k = true ∧ encode k (decode k (.root b)) = .root b)
    ∧ decode k (.sub b) = (if b = 0x00#8 then .subTerminator else .subData b)
    ∧ decode k (.root b) = (if 2 ≤ b.toNat ∧ b.toNat ≤ 8 then .rootValid b else .rootInvalid b)

/-- R85: "falls in exactly one class"; R86: the classes are disjoint. -/
def Obligations.CodeClassesPartitionTheCodes : Prop :=
  ∀ (k : CodeContext) (c : Code), k.legal = true →
    (decode k (.code c)).wf k = true ∧ encode k (decode k (.code c)) = .code c
    ∧ ∀ i : Instr, i.wf k = true → encode k i = .code c → i = decode k (.code c)

/-- The encoding columns of P1 and P4 (95_test_vectors.md section 3; R88), the bytes of R81 and R82, and the codes of
V-CLASSIC (section 2.2; R85, R87). THE MODEL'S CHOICE: that the word 0x10400000003, with both command bits, decodes to the
ABORT row (log 11, DEDUCED from R89). -/
def Obligations.SampleWordsDecode : Prop :=
  decodeHost 0x00000000000#41 = .rdId 0 0
  ∧ decodeHost 0x12000000000#41 = .wrPalIndex 0 0
  ∧ decodeHost 0x12400FF0000#41 = .wrPalData 0 0x00FF0000
  ∧ decodeHost 0x11C00001000#41 = .wrFbBase 0 0x1000
  ∧ decodeHost 0x10400000001#41 = .wrCtrlStart 0 1
  ∧ decodeHost 0x10400000002#41 = .wrCtrlAbort 0 2
  ∧ decodeHost 0x10400000003#41 = .wrCtrlAbort 0 3
  ∧ decodeHost 0x00800000000#41 = .rdStatus 0 0
  ∧ decodeRoot 0x02#8 = .rootValid 2 ∧ decodeRoot 0x09#8 = .rootInvalid 9
  ∧ decodeSub 0x00#8 = .subTerminator ∧ decodeSub 0x03#8 = .subData 3
  ∧ decodeCode { clearCode := 4, endCode := 5, maxCode := 6, fresh := true } 4 = .clear
  ∧ decodeCode { clearCode := 4, endCode := 5, maxCode := 6, fresh := true } 0 = .first 0
  ∧ decodeCode { clearCode := 4, endCode := 5, maxCode := 6, fresh := false } 1 = .literal 1
  ∧ decodeCode { clearCode := 4, endCode := 5, maxCode := 7, fresh := false } 6 = .defined 6
  ∧ decodeCode { clearCode := 4, endCode := 5, maxCode := 8, fresh := false } 8 = .kwkwk 8
  ∧ decodeCode { clearCode := 4, endCode := 5, maxCode := 9, fresh := false } 5 = .endCode

/-- R111: a read at every offset of the window, bits 1:0 of the offset ignored. THE MODEL'S CHOICE: that a read word whose
DATA is not the 0 of R88 is the same read (log 27, DEDUCED from R95). -/
def Obligations.ReadsReplyTheAddressedWord : Prop :=
  ∀ (s : State) (w : HostWord), w.getLsbD 40 = false →
    exec (decodeHost w) s = .next { s with rdata := registerWord (w.extractLsb' 34 6) s }

/-- R126, with the codes of R90 and R271. -/
def Obligations.ReadStatusPacksTheFlags : Prop :=
  (∀ (s : State) (lo : BitVec 2) (data : Word), ∃ v : Word,
    exec (.rdStatus lo data) s = .next { s with rdata := v }
    ∧ v.getLsbD 0 = decide (s.phase ≠ .idle) ∧ v.getLsbD 1 = s.regs.done ∧ v.getLsbD 2 = s.extra
    ∧ v.getLsbD 3 = s.noEnd ∧ v.extractLsb' 4 3 = phaseCode s.phase ∧ v.getLsbD 7 = false
    ∧ v.extractLsb' 8 4 = causeCode s.regs.cause ∧ v.extractLsb' 12 4 = 0#4
    ∧ v.getLsbD 16 = s.regs.errBusy ∧ v.extractLsb' 17 15 = 0#15
    ∧ (quietWhileBusy s = true → s.phase ≠ .idle → v.extractLsb' 8 4 = 0#4 ∧ v.getLsbD 1 = false))
  ∧ (phaseCode .idle = 0#3 ∧ phaseCode .root = 1#3 ∧ phaseCode .fill = 2#3 ∧ phaseCode .tail = 3#3
    ∧ phaseCode .drain = 4#3)
  ∧ (causeCode .ok = 0#4 ∧ causeCode .shortData = 1#4 ∧ causeCode .badRoot = 2#4 ∧ causeCode .badTerminator = 3#4
    ∧ causeCode .lzwSelfPrefix = 4#4 ∧ causeCode .lzwUndefinedCode = 5#4 ∧ causeCode .lzwStackOverflow = 6#4
    ∧ causeCode .lzwBadFirstCode = 7#4 ∧ causeCode .inputEof = 8#4 ∧ causeCode .aborted = 9#4)

/-- R127, with the packings of R21, R22, R31, R32, R33, and R34. -/
def Obligations.ReadIdentityCountersAndReserved : Prop :=
  ∀ (s : State) (b1 : BitVec 1) (b4 : BitVec 4) (b5 : BitVec 5) (lo : BitVec 2) (data : Word),
    exec (.rdId lo data) s = .next { s with rdata := 0x4A494601#32 }
    ∧ exec (.rdReserved34 lo data) s = .next { s with rdata := 0#32 }
    ∧ exec (.rdReserved38 b1 lo data) s = .next { s with rdata := 0#32 }
    ∧ exec (.rdReserved40 b4 lo data) s = .next { s with rdata := 0#32 }
    ∧ exec (.rdReserved80 b5 lo data) s = .next { s with rdata := 0#32 }
    ∧ exec (.rdCtrl lo data) s = .next { s with rdata := 0#32 }
    ∧ exec (.rdPixCount lo data) s = .next { s with rdata := s.regs.pixCount }
    ∧ exec (.rdBytesIn lo data) s = .next { s with rdata := s.regs.bytesIn }
    ∧ ∃ v : Word, exec (.rdLzwState lo data) s = .next { s with rdata := v }
      ∧ v.extractLsb' 0 4 = s.regs.lzwState.codeSize ∧ v.extractLsb' 4 13 = s.regs.lzwState.maxCode
      ∧ v.getLsbD 17 = s.regs.lzwState.fresh ∧ v.extractLsb' 18 6 = 0#6
      ∧ v.extractLsb' 24 8 = s.regs.lzwState.rootByte

/-- R128. -/
def Obligations.ReadConfiguration : Prop :=
  ∀ (s : State) (lo : BitVec 2) (data : Word),
    exec (.rdFrameW lo data) s = .next { s with rdata := 0#16 ++ s.regs.frameW }
    ∧ exec (.rdFrameH lo data) s = .next { s with rdata := 0#16 ++ s.regs.frameH }
    ∧ exec (.rdFrameCfg lo data) s =
      .next { s with
        rdata := 0#16 ++ s.regs.transpIdx ++ 0#6 ++ BitVec.ofBool s.regs.transpEn ++ BitVec.ofBool s.regs.interlace }
    ∧ exec (.rdFbBase lo data) s = .next { s with rdata := s.regs.fbBase }
    ∧ exec (.rdIrqEn lo data) s = .next { s with rdata := 0#31 ++ BitVec.ofBool s.regs.doneIe }
    ∧ exec (.rdPalIndex lo data) s = .next { s with rdata := 0#24 ++ s.regs.palIndex }

/-- R124; R36 and R45 give the entries not loaded. PAL_INIT is an open parameter, here an uninterpreted constant (log 6). -/
def Obligations.ReadPaletteEntry : Prop :=
  ∀ (s : State) (lo : BitVec 2) (data : Word),
    exec (.rdPalData lo data) s = .next { s with rdata := 0#8 ++ palRead s s.regs.palIndex }
    ∧ (cellGet s.regs.palIndex.toNat s.pal = none → palRead s s.regs.palIndex = Config.palInit s.regs.palIndex)

/-- R112. -/
def Obligations.IgnoredWritesChangeNothing : Prop :=
  ∀ (s : State) (b1 : BitVec 1) (b4 : BitVec 4) (b5 : BitVec 5) (lo : BitVec 2) (data : Word),
    exec (.wrId lo data) s = .next s ∧ exec (.wrPixCount lo data) s = .next s
    ∧ exec (.wrLzwState lo data) s = .next s ∧ exec (.wrBytesIn lo data) s = .next s
    ∧ exec (.wrReserved34 lo data) s = .next s ∧ exec (.wrReserved38 b1 lo data) s = .next s
    ∧ exec (.wrReserved40 b4 lo data) s = .next s ∧ exec (.wrReserved80 b5 lo data) s = .next s

/-- R89. THE MODEL'S CHOICE: the name of the word with both bits, the ABORT row (log 11, DEDUCED); its effects are R89's. -/
def Obligations.ControlWritesActInOrder : Prop :=
  ∀ (s : State) (lo : BitVec 2) (data : Word),
    (data.getLsbD 1 = false → data.getLsbD 0 = false →
      decodeCtrl lo data = .wrCtrlNone lo data ∧ exec (.wrCtrlNone lo data) s = .next s)
    ∧ (data.getLsbD 1 = false → data.getLsbD 0 = true →
      decodeCtrl lo data = .wrCtrlStart lo data ∧ exec (.wrCtrlStart lo data) s = .next (startFrame s))
    ∧ (data.getLsbD 1 = true → data.getLsbD 0 = false →
      decodeCtrl lo data = .wrCtrlAbort lo data ∧ exec (.wrCtrlAbort lo data) s = .next (abortFrame s))
    ∧ (data.getLsbD 1 = true → data.getLsbD 0 = true →
      decodeCtrl lo data = .wrCtrlAbort lo data
        ∧ exec (.wrCtrlAbort lo data) s = .next (startFrame (abortFrame s)))

/-- R113, R35. -/
def Obligations.StartLatchesTheFrame : Prop :=
  ∀ (s : State) (lo : BitVec 2) (data : Word), s.phase = .idle → ∃ t, exec (.wrCtrlStart lo data) s = .next t
    ∧ t = { s with
        cfg :=
          { width := s.regs.frameW, height := s.regs.frameH, interlace := s.regs.interlace
            transpEn := s.regs.transpEn, transpIdx := s.regs.transpIdx, base := s.regs.fbBase
            total := t.cfg.total, bpp := if s.regs.transpEn then 4 else 3 }
        regs :=
          { s.regs with
            done := false, cause := .ok, pixCount := 0, bytesIn := 0
            lzwState := { codeSize := 0, maxCode := 0, fresh := false, rootByte := 0 } }
        extra := false, noEnd := false, cur := { row := 0, col := 0, pass := 1 }, phase := .root }
    ∧ t.cfg.total.toNat = s.regs.frameW.toNat * s.regs.frameH.toNat
    ∧ irq t = false ∧ busy t = true

/-- R114. -/
def Obligations.StartWhileBusyIsRefused : Prop :=
  ∀ (s : State) (lo : BitVec 2) (data : Word), s.phase ≠ .idle →
    exec (.wrCtrlStart lo data) s = .next { s with regs := { s.regs with errBusy := true } }
    ∧ (data.getLsbD 0 = true → ∃ t, exec (.wrCtrlAbort lo data) s = .next t
        ∧ t.regs.errBusy = s.regs.errBusy ∧ t.phase = .root)

/-- R116, R272. -/
def Obligations.AbortEndsTheRunningFrame : Prop :=
  ∀ (s : State) (lo : BitVec 2) (data : Word), data.getLsbD 0 = false →
    (s.phase ≠ .idle →
      exec (.wrCtrlAbort lo data) s =
        .next { s with phase := .idle, regs := { s.regs with cause := .aborted, done := true } })
    ∧ (s.phase = .idle → exec (.wrCtrlAbort lo data) s = .next s)
    ∧ causeCode .aborted = 9#4

/-- R117, R118. -/
def Obligations.StatusAndInterruptEnableWrites : Prop :=
  ∀ (s : State) (lo : BitVec 2) (v : Word),
    (∃ t, exec (.wrStatus lo v) s = .next t
      ∧ t = { s with
          regs :=
            { s.regs with
              done := if v.getLsbD 1 then false else s.regs.done
              errBusy := if v.getLsbD 16 then false else s.regs.errBusy } }
      ∧ (v.getLsbD 1 = true → irq t = false))
    ∧ ∃ t, exec (.wrIrqEn lo v) s = .next t
      ∧ t = { s with regs := { s.regs with doneIe := v.getLsbD 0 } }
      ∧ (s.regs.done = true → irq t = v.getLsbD 0)
      ∧ irqEnWord t.regs = v &&& 1#32

/-- R119, R120, R125. -/
def Obligations.DimensionAndPaletteIndexWrites : Prop :=
  ∀ (s : State) (lo : BitVec 2) (v : Word),
    (∃ t, exec (.wrFrameW lo v) s = .next t
      ∧ t = { s with regs := { s.regs with frameW := v.extractLsb' 0 16 } } ∧ frameWWord t.regs = v &&& 0xFFFF#32)
    ∧ (∃ t, exec (.wrFrameH lo v) s = .next t
      ∧ t = { s with regs := { s.regs with frameH := v.extractLsb' 0 16 } } ∧ frameHWord t.regs = v &&& 0xFFFF#32)
    ∧ ∃ t, exec (.wrPalIndex lo v) s = .next t
      ∧ t = { s with regs := { s.regs with palIndex := v.extractLsb' 0 8 } } ∧ palIndexWord t.regs = v &&& 0xFF#32

/-- R121, R122. -/
def Obligations.FrameConfigAndBaseWrites : Prop :=
  ∀ (s : State) (lo : BitVec 2) (v : Word),
    (∃ t, exec (.wrFrameCfg lo v) s = .next t
      ∧ t = { s with
          regs :=
            { s.regs with
              interlace := v.getLsbD 0, transpEn := v.getLsbD 1, transpIdx := v.extractLsb' 8 8 } }
      ∧ frameCfgWord t.regs = v &&& 0xFF03#32)
    ∧ exec (.wrFbBase lo v) s = .next { s with regs := { s.regs with fbBase := v } }

/-- R123. -/
def Obligations.PaletteWrite : Prop :=
  ∀ (s : State) (lo : BitVec 2) (v : Word),
    (s.phase = .idle → ∃ t, exec (.wrPalData lo v) s = .next t
      ∧ t = { s with pal := t.pal, regs := { s.regs with palIndex := s.regs.palIndex + 1 } }
      ∧ palRead t s.regs.palIndex = v.extractLsb' 0 24
      ∧ ∀ j : Byte, j ≠ s.regs.palIndex → palRead t j = palRead s j)
    ∧ (s.phase ≠ .idle →
      exec (.wrPalData lo v) s = .next { s with regs := { s.regs with errBusy := true } })

/-- R188, R189, with the raise of R202 and the exit of R243 written out in corruptDone. -/
def Obligations.FirstCodeEmitsItself : Prop :=
  ∀ (s : State) (c : Code), decoding s = true →
    (c.toNat < s.lzw.maxCode.toNat →
      exec (.first c) s =
        .next (indexDone (c.setWidth 8)
          { s with lzw := { s.lzw with fresh := false, oldCode := c, firstCode := c.setWidth 8 } }))
    ∧ (s.lzw.maxCode.toNat ≤ c.toNat → exec (.first c) s = .next (corruptDone .lzwBadFirstCode s))
    ∧ exec (.badFirst c) s = .next (corruptDone .lzwBadFirstCode s)

/-- R190. -/
def Obligations.LiteralEmitsAndInserts : Prop :=
  ∀ (s : State) (c : Code), decoding s = true → s.lzw.stack.length < 4096 →
    exec (.literal c) s =
      .next (indexDone (c.setWidth 8)
        { s with lzw := { insertEntry { s.lzw with firstCode := c.setWidth 8 } with oldCode := c } })

/-- R195, R197. -/
def Obligations.InsertAddsOneEntry : Prop :=
  ∀ l : Lzw,
    (l.maxCode.toNat < 4096 → ∃ t, insertEntry l = t
      ∧ cellGet l.maxCode.toNat t.table = some { pre := l.oldCode, suf := l.firstCode }
      ∧ (∀ n, n ≠ l.maxCode.toNat → cellGet n t.table = cellGet n l.table)
      ∧ (if l.maxCode + 1 = l.maxCodeSize ∧ l.maxCodeSize.toNat < 4096 then
          t = { l with
            table := t.table, maxCode := l.maxCode + 1, maxCodeSize := 2 * l.maxCodeSize, codeSize := l.codeSize + 1 }
        else t = { l with table := t.table, maxCode := l.maxCode + 1 }))
    ∧ (4096 ≤ l.maxCode.toNat → insertEntry l = l)

/-- R191, R193: the string of c is emitted first symbol first. -/
def Obligations.DefinedCodeEmitsItsString : Prop :=
  ∀ (s : State) (c d : Code) (syms : List Byte), decoding s = true → s.lzw.stack = [] →
    WalksTo s.resets s.lzw c syms d → d.toNat < s.lzw.clearCode.toNat → syms.length < 4096 →
    exec (.defined c) s =
      .next (indexDone (d.setWidth 8)
        { s with
          lzw :=
            { insertEntry { s.lzw with firstCode := d.setWidth 8, stack := syms.reverse } with oldCode := c } })

/-- R192: the KwKwK extra symbol, pushed first, comes out last. -/
def Obligations.RepeatedCodeEmitsThePreviousString : Prop :=
  ∀ (s : State) (c d : Code) (syms : List Byte), decoding s = true → s.lzw.stack = [] →
    WalksTo s.resets s.lzw s.lzw.oldCode syms d → d.toNat < s.lzw.clearCode.toNat → syms.length + 1 < 4096 →
    exec (.kwkwk c) s =
      .next (indexDone (d.setWidth 8)
        { s with
          lzw :=
            { insertEntry
                { s.lzw with firstCode := d.setWidth 8, stack := syms.reverse ++ [s.lzw.firstCode] } with
              oldCode := c } })

/-- R193. -/
def Obligations.BrokenChainsAreCorrupt : Prop :=
  ∀ (s : State) (c d : Code) (syms : List Byte), decoding s = true → s.lzw.stack = [] →
    s.lzw.clearCode.toNat ≤ d.toNat → syms.length + 1 < 4096 →
    (WalksTo s.resets s.lzw c syms d →
      (s.lzw.maxCode.toNat ≤ d.toNat → exec (.defined c) s = .next (corruptDone .lzwUndefinedCode s))
      ∧ (d.toNat < s.lzw.maxCode.toNat → (readSlot s.resets s.lzw d).pre = d →
        exec (.defined c) s = .next (corruptDone .lzwSelfPrefix s)))
    ∧ (WalksTo s.resets s.lzw s.lzw.oldCode syms d →
      (s.lzw.maxCode.toNat ≤ d.toNat → exec (.kwkwk c) s = .next (corruptDone .lzwUndefinedCode s))
      ∧ (d.toNat < s.lzw.maxCode.toNat → (readSlot s.resets s.lzw d).pre = d →
        exec (.kwkwk c) s = .next (corruptDone .lzwSelfPrefix s)))

/-- R186: reset the table, then read the next code in the same call. -/
def Obligations.ClearThenRootEmitsTheRoot : Prop :=
  ∀ (s : State) (c : Code), decoding s = true → lzwInRange s.lzw = true →
    s.lzw.rootSize.toNat + 1 ≤ s.rd.nbits.toNat →
    c.toNat = s.rd.acc.toNat % 2 ^ (s.lzw.rootSize.toNat + 1) → c.toNat < s.lzw.clearCode.toNat →
    exec .clear s =
      .next (indexDone (c.setWidth 8)
        { s with
          lzw := { resetTable s.lzw with fresh := false, oldCode := c, firstCode := c.setWidth 8 }
          rd :=
            { s.rd with
              acc := s.rd.acc >>> (s.lzw.rootSize.toNat + 1)
              nbits := s.rd.nbits - BitVec.ofNat 12 (s.lzw.rootSize.toNat + 1) } })

/-- R186, R153: a NextIndex call goes on over clear codes and refills within one engine step. -/
def Obligations.ClearReadsOnInTheSameCall : Prop :=
  ∀ s : State, decoding s = true → engineInv s = true →
    (∀ i s1, fetchCode (clearTable s) = .token i s1 → exec .clear s = exec i s1)
    ∧ (∀ r s1, fetchCode (clearTable s) = .result r s1 → exec .clear s = settle r s1)
    ∧ (∃ t, exec .clear s = .next t)
    ∧ ∀ (n : Byte) (data rest : List Byte), data.length = n.toNat → s.input = data ++ rest →
      s.rd.nbits.toNat < s.lzw.codeSize.toNat →
      ∀ s0 : State, s0 = { s with
          rd := appendData s.rd data
          input := rest
          regs := { s.regs with bytesIn := s.regs.bytesIn + BitVec.ofNat 32 data.length } } →
        (∀ i s1, fetchCode s0 = .token i s1 → exec (.subData n) s = exec i s1)
        ∧ (∀ r s1, fetchCode s0 = .result r s1 → exec (.subData n) s = settle r s1)
        ∧ ∃ t, exec (.subData n) s = .next t

/-- R182, R181, R87. -/
def Obligations.ResetTableStartsOver : Prop :=
  (∀ l : Lzw,
    resetTable l = { l with
        table := (resetTable l).table, codeSize := l.rootSize + 1, maxCode := l.clearCode + 2
        maxCodeSize := 2 * l.clearCode, stack := [], fresh := true }
    ∧ (∀ i, i < l.clearCode.toNat → cellGet i (resetTable l).table = some { pre := 0, suf := BitVec.ofNat 8 i })
    ∧ ∀ i, l.clearCode.toNat ≤ i → cellGet i (resetTable l).table = cellGet i l.table)
  ∧ ∀ (l : Lzw) (r : Byte), 2 ≤ r.toNat → r.toNat ≤ 8 → ∃ t, initLzw r l = t
    ∧ t.rootSize.toNat = r.toNat ∧ t.clearCode.toNat = 2 ^ r.toNat ∧ t.endCode.toNat = 2 ^ r.toNat + 1
    ∧ t.maxCode.toNat = 2 ^ r.toNat + 2 ∧ t.codeSize.toNat = r.toNat + 1 ∧ t.maxCodeSize.toNat = 2 * 2 ^ r.toNat
    ∧ t.oldCode = 0 ∧ t.firstCode = 0 ∧ t.fresh = true ∧ t.result = .none ∧ t.stack = []

/-- R187. -/
def Obligations.EndCodeChecksTheTerminator : Prop :=
  ∀ s : State, decoding s = true →
    (s.rd.exhausted = true →
      exec .endCode s = .next (dataDone { s with rd := { acc := 0, nbits := 0, exhausted := true } }))
    ∧ (s.rd.exhausted = false →
      (∀ rest, s.input = 0 :: rest →
        exec .endCode s =
          .next (dataDone { s with
            rd := { acc := 0, nbits := 0, exhausted := true }
            input := rest
            regs := { s.regs with bytesIn := s.regs.bytesIn + 1 } }))
      ∧ (∀ (n : Byte) (data rest : List Byte), n ≠ 0 → data.length = n.toNat → s.input = n :: (data ++ rest) →
        exec .endCode s =
          .next (corruptDone .badTerminator { s with
            rd := { acc := 0, nbits := 0, exhausted := false }
            input := rest
            regs := { s.regs with bytesIn := s.regs.bytesIn + BitVec.ofNat 32 (data.length + 1) } }))
      ∧ ((s.input = [] ∨ ∃ n data, s.input = n :: data ∧ data.length < n.toNat) →
        exec .endCode s =
          .next (eofDone { s with
            rd := { acc := 0, nbits := 0, exhausted := false }
            input := []
            regs := { s.regs with bytesIn := s.regs.bytesIn + BitVec.ofNat 32 s.input.length } })))

/-- R158, R245. -/
def Obligations.SubBlocksInDrainAreSkipped : Prop :=
  ∀ s : State, s.phase = .drain →
    (∀ (n : Byte) (data rest : List Byte), data.length = n.toNat → s.input = data ++ rest →
      exec (.subData n) s =
        .next { s with
          input := rest
          regs := { s.regs with bytesIn := s.regs.bytesIn + BitVec.ofNat 32 data.length } })
    ∧ (∀ n : Byte, s.input.length < n.toNat →
      exec (.subData n) s =
        .next { s with
          input := []
          phase := .idle
          regs :=
            { s.regs with
              bytesIn := s.regs.bytesIn + BitVec.ofNat 32 s.input.length, cause := .inputEof, done := true } })
    ∧ exec .subTerminator s =
      .next { s with
        rd := { s.rd with exhausted := true }
        phase := .idle
        regs := { s.regs with cause := s.pend, done := true } }

/-- R153, R155, R156, R185. That exec goes on where fetch took the length byte is the model's split of a step (log 14). -/
def Obligations.RefillsInTheData : Prop :=
  ∀ s : State, decoding s = true → s.rd.nbits.toNat < s.lzw.codeSize.toNat →
    exec .subTerminator s =
      .next (dataDone { s with noEnd := true, rd := { s.rd with exhausted := true } })
    ∧ (∀ n : Byte, s.input.length < n.toNat →
      exec (.subData n) s =
        .next (eofDone { s with
          input := []
          regs := { s.regs with bytesIn := s.regs.bytesIn + BitVec.ofNat 32 s.input.length } }))
    ∧ ∀ (n : Byte) (data rest : List Byte) (s0 : State), engineInv s = true → data.length = n.toNat →
      s.input = data ++ rest →
      s0 = { s with
        rd := appendData s.rd data
        input := rest
        regs := { s.regs with bytesIn := s.regs.bytesIn + BitVec.ofNat 32 data.length } } →
      s.lzw.codeSize.toNat ≤ s0.rd.nbits.toNat →
      exec (.subData n) s =
        exec (decodeCode (codeContext s.lzw) (takeCode s.lzw.codeSize.toNat s0.rd).1)
          { s0 with rd := (takeCode s.lzw.codeSize.toNat s0.rd).2 }

/-- R232, R246. -/
def Obligations.RootByteStartsDecoding : Prop :=
  ∀ (s : State) (r : Byte), s.phase = .root →
    exec (.rootValid r) s =
      .next { s with
        rd := { acc := 0, nbits := 0, exhausted := false }
        lzw := initLzw r s.lzw
        phase := if s.cfg.total = 0 then .tail else .fill
        regs :=
          { s.regs with
            lzwState :=
              { codeSize := (initLzw r s.lzw).codeSize, maxCode := (initLzw r s.lzw).maxCode
                fresh := (initLzw r s.lzw).fresh, rootByte := r } } }
    ∧ exec (.rootInvalid r) s =
      .next { s with
        rd := { acc := 0, nbits := 0, exhausted := false }
        pend := .badRoot
        phase := .drain
        regs := { s.regs with lzwState := { s.regs.lzwState with rootByte := r } } }

/-- R65, R153. -/
def Obligations.CodesAreTheOldestBits : Prop :=
  (∀ (r : Reader) (b : Byte), readerBounded r = true → r.nbits.toNat + 8 ≤ 2051 →
    (appendByte r b).nbits.toNat = r.nbits.toNat + 8
    ∧ readerBounded (appendByte r b) = true
    ∧ (∀ j, j < r.nbits.toNat → (appendByte r b).acc.getLsbD j = r.acc.getLsbD j)
    ∧ ∀ j, j < 8 → (appendByte r b).acc.getLsbD (r.nbits.toNat + j) = b.getLsbD j)
  ∧ ∀ (r : Reader) (w : Nat), readerBounded r = true → w ≤ 12 → w ≤ r.nbits.toNat →
    (∀ j, (takeCode w r).1.getLsbD j = (decide (j < w) && r.acc.getLsbD j))
    ∧ (takeCode w r).2.nbits.toNat = r.nbits.toNat - w
    ∧ readerBounded (takeCode w r).2 = true
    ∧ ∀ j, (takeCode w r).2.acc.getLsbD j = r.acc.getLsbD (j + w)

/-- R159: "the code stream is the same whatever the split". -/
def Obligations.SplittingKeepsTheCode : Prop :=
  ∀ (s : State) (w : Nat) (d1 d2 rest : List Byte), readerBounded s.rd = true → s.rd.exhausted = false →
    s.rd.nbits.toNat < w → w ≤ 12 → 0 < d1.length → 0 < d2.length → d1.length + d2.length ≤ 255 →
    w ≤ s.rd.nbits.toNat + 8 * (d1.length + d2.length) →
    ∃ c, (nextCode w { s with input := BitVec.ofNat 8 (d1.length + d2.length) :: (d1 ++ d2 ++ rest) }).1 = .code c
      ∧ (nextCode w
          { s with
            input := BitVec.ofNat 8 d1.length :: (d1 ++ BitVec.ofNat 8 d2.length :: (d2 ++ rest)) }).1 = .code c

/-- R234, R239, R240, R63, R64. -/
def Obligations.IndexInFillWritesThePixel : Prop :=
  ∀ (s : State) (i : Byte),
    (s.phase = .fill → s.cfg.bpp = (if s.cfg.transpEn then 4#3 else 3#3) →
      ∃ (t : State) (a : Word), indexDone i s = t
      ∧ a = BitVec.ofNat 32 (s.cfg.base.toNat
          + s.cfg.bpp.toNat * (s.cur.row.toNat * s.cfg.width.toNat + s.cur.col.toNat))
      ∧ t = { s with
          mem := t.mem
          regs := snapshot { s.regs with pixCount := s.regs.pixCount + 1 } s.lzw
          cur := advance s.cfg s.cur
          phase := if s.regs.pixCount + 1 = s.cfg.total then .tail else .fill }
      ∧ memRead t.mem a = some ((palRead s i).extractLsb' 0 8)
      ∧ memRead t.mem (a + 1) = some ((palRead s i).extractLsb' 8 8)
      ∧ memRead t.mem (a + 2) = some ((palRead s i).extractLsb' 16 8)
      ∧ (s.cfg.transpEn = true → memRead t.mem (a + 3) = some (if i = s.cfg.transpIdx then 0x00#8 else 0xFF#8))
      ∧ ∀ b : Word, b ≠ a → b ≠ a + 1 → b ≠ a + 2 → (s.cfg.transpEn = true → b ≠ a + 3) →
        memRead t.mem b = memRead s.mem b)
    ∧ (s.phase = .tail →
      indexDone i s = { s with extra := true, regs := snapshot s.regs s.lzw })

/-- R237, the table; the row for height 8 is the source's property S2. -/
def Obligations.InterlacedRowOrders : Prop :=
  interlacedRows 1 = [0] ∧ interlacedRows 2 = [0, 1] ∧ interlacedRows 3 = [0, 2, 1]
  ∧ interlacedRows 4 = [0, 2, 1, 3] ∧ interlacedRows 5 = [0, 4, 2, 1, 3]
  ∧ interlacedRows 8 = [0, 4, 2, 6, 1, 3, 5, 7] ∧ interlacedRows 10 = [0, 8, 4, 2, 6, 1, 3, 5, 7, 9]

/-- R235 to R237, R241. -/
def Obligations.CursorStaysOnItsPosition : Prop :=
  ∀ s t : State, rasterInv s = true → step s = .next t → rasterInv t = true

/-- R237: "every pixel of the frame is written at most once". -/
def Obligations.EachPixelHasOnePosition : Prop :=
  ∀ s t : State, s.phase = .fill → t.phase = .fill → rasterInv s = true → rasterInv t = true → s.cfg = t.cfg →
    s.cur.row = t.cur.row → s.cur.col = t.cur.col → s.regs.pixCount = t.regs.pixCount

/-- R73: "It writes no other frame-memory byte". -/
def Obligations.WritesStayInTheFootprint : Prop :=
  ∀ s t : State, rasterInv s = true → step s = .next t →
    (∀ a : Word, inFootprint s.cfg a = false → memRead t.mem a = memRead s.mem a)
    ∧ (s.phase = .idle → t.mem = s.mem)

/-- R45. -/
def Obligations.ResetMeetsTheInvariants : Prop :=
  quietWhileBusy State.reset = true ∧ storageCanonical State.reset = true ∧ engineInv State.reset = true
  ∧ tableInv State.reset = true ∧ rasterInv State.reset = true
  ∧ State.reset.phase = .idle ∧ irq State.reset = false
  ∧ registerWord 0 State.reset = 0x4A494601#32
  ∧ (∀ idx : BitVec 6, idx ≠ 0 → idx ≠ 9 → registerWord idx State.reset = 0#32)
  ∧ registerWord 9 State.reset = 0#8 ++ Config.palInit 0

/-- R271: "`CAUSE` reads 0 while BUSY". -/
def Obligations.StatusIsQuietWhileBusy : Prop :=
  ∀ s t : State, quietWhileBusy s = true → step s = .next t → quietWhileBusy t = true

/-- The canonical form of the keyed lists (log 5, log 24). -/
def Obligations.StorageStaysCanonical : Prop :=
  ∀ s t : State, storageCanonical s = true → step s = .next t → storageCanonical t = true

/-- R154, R160, R201. -/
def Obligations.EngineInvariantKept : Prop :=
  ∀ s t : State, engineInv s = true → step s = .next t → engineInv t = true

/-- R270: a completion never stops the block. -/
def Obligations.EveryStepAnswersANextState : Prop :=
  ∀ s : State, engineInv s = true → ∃ t, step s = .next t

/-- R196, R203, R205. -/
def Obligations.SymbolsStayRoots : Prop :=
  ∀ s t : State, tableInv s = true → step s = .next t → tableInv t = true

/-- R200: "LZW_STACK_OVERFLOW is unreachable". The bound here is one over all root sizes. -/
def Obligations.StackNeverOverflows : Prop :=
  ∀ s t : State, decoding s = true → tableInv s = true → chainsStop s.resets s.lzw → engineStep s = .next t →
    (decoding t = true → chainsStop t.resets t.lzw)
    ∧ t.lzw.result ≠ .corrupt .lzwStackOverflow
    ∧ (s.lzw.stack.length ≤ 4092 → t.lzw.stack.length ≤ 4092)

/-- R230, R232, R234, R244, R245. -/
def Obligations.EngineStepIsTheRulesStep : Prop :=
  ∀ s : State, engineInv s = true → ∃ t, ruleStep s = some t ∧ engineStep s = .next t

/-- R150: "No look-ahead exists". -/
def Obligations.EngineNeverLooksAhead : Prop :=
  ∀ (s t : State) (more : List Byte), s.inEof = false → engineMove s = .next t → t ≠ s →
    engineMove { s with input := s.input ++ more } = .next { t with input := t.input ++ more }

/-- R62, R33, R161. -/
def Obligations.InputIsTakenInOrder : Prop :=
  ∀ s t : State, engineMove s = .next t →
    ∃ taken, s.input = taken ++ t.input ∧ t.regs.bytesIn = s.regs.bytesIn + BitVec.ofNat 32 taken.length
      ∧ (s.rd.exhausted = true → s.phase ≠ .root → taken = [])

/-- R247, R249. -/
def Obligations.CompletionFollowsTheTerminator : Prop :=
  ∀ s t : State, engineInv s = true → s.phase ≠ .idle → engineMove s = .next t → t.phase = .idle →
    t.regs.cause ≠ .inputEof →
    t.rd.exhausted = true
    ∧ (∃ taken, s.input = taken ++ t.input ∧ (s.rd.exhausted = false → taken.getLast? = some 0))
    ∧ (t.regs.cause = .ok → rasterInv s = true → t.regs.pixCount = s.cfg.total)

/-- R313: "with a finite `IN`, every frame reaches `finish` after finitely many engine steps". -/
def Obligations.EveryEngineStepShrinksTheWork : Prop :=
  ∀ s t : State, engineInv s = true → s.phase ≠ .idle → engineStep s = .next t → workLeft t < workLeft s

/-- R36: "Only the host writes it"; R35, R305. -/
def Obligations.OnlyTheHostWritesThePalette : Prop :=
  ∀ s t : State, step s = .next t →
    (t.pal ≠ s.pal →
      (s.phase = .idle ∧ ∃ w rest lo data, s.agenda = .op w :: rest ∧ decodeHost w = .wrPalData lo data)
      ∨ ∃ rest, s.agenda = .reset :: rest)
    ∧ (t.cfg ≠ s.cfg →
      (∃ w rest lo data, s.agenda = .op w :: rest
        ∧ (decodeHost w = .wrCtrlStart lo data ∨ decodeHost w = .wrCtrlAbort lo data) ∧ data.getLsbD 0 = true)
      ∨ ∃ rest, s.agenda = .reset :: rest)

/-- R272, R241, R230. -/
def Obligations.EngineMovesLeaveHostRegisters : Prop :=
  ∀ s t : State, engineMove s = .next t →
    t.regs.frameW = s.regs.frameW ∧ t.regs.frameH = s.regs.frameH ∧ t.regs.interlace = s.regs.interlace
    ∧ t.regs.transpEn = s.regs.transpEn ∧ t.regs.transpIdx = s.regs.transpIdx ∧ t.regs.fbBase = s.regs.fbBase
    ∧ t.regs.palIndex = s.regs.palIndex ∧ t.regs.doneIe = s.regs.doneIe ∧ t.regs.errBusy = s.regs.errBusy
    ∧ t.pal = s.pal ∧ t.cfg = s.cfg ∧ t.rdata = s.rdata ∧ t.frameReply = s.frameReply ∧ t.agenda = s.agenda
    ∧ t.inEof = s.inEof ∧ t.draws = s.draws ∧ t.resets = s.resets
    ∧ ((t.regs.pixCount = s.regs.pixCount ∧ t.mem = s.mem) ∨ t.regs.pixCount = s.regs.pixCount + 1)

/-- R274. -/
def Obligations.InterruptRisesOnlyByItsCauses : Prop :=
  ∀ s t : State, step s = .next t →
    (irq s = false → irq t = true →
      (s.phase ≠ .idle ∧ t.phase = .idle)
      ∨ (s.regs.done = true ∧ ∃ w rest lo data, s.agenda = .op w :: rest ∧ decodeHost w = .wrIrqEn lo data
          ∧ data.getLsbD 0 = true))
    ∧ (irq s = true → irq t = false → (∃ w rest, s.agenda = .op w :: rest) ∨ ∃ rest, s.agenda = .reset :: rest)

/-- R273. -/
def Obligations.NothingCarriesOverBetweenFrames : Prop :=
  ∀ (s1 s2 t1 t2 : State) (r : Byte), s1.phase = .root → s2.phase = .root →
    exec (.rootValid r) s1 = .next t1 → exec (.rootValid r) s2 = .next t2 →
    t1.rd = t2.rd ∧ { t1.lzw with table := [] } = { t2.lzw with table := [] }
end

