-- ==== Sys2Proof/Laws/State.lean ====
section
/-! SUPPORT. One lemma per field of `State` per update of it, so that no proof unfolds a record update. -/

namespace Sys2Proof.Machine

/-! ### `finish` (R272) -/

@[simp] theorem finish_regs (c : Cause) (s : State) : (finish c s).regs = { s.regs with cause := c, done := true } := rfl

@[simp] theorem finish_cfg (c : Cause) (s : State) : (finish c s).cfg = s.cfg := rfl

@[simp] theorem finish_phase (c : Cause) (s : State) : (finish c s).phase = .idle := rfl

@[simp] theorem finish_pend (c : Cause) (s : State) : (finish c s).pend = s.pend := rfl

@[simp] theorem finish_extra (c : Cause) (s : State) : (finish c s).extra = s.extra := rfl

@[simp] theorem finish_noEnd (c : Cause) (s : State) : (finish c s).noEnd = s.noEnd := rfl

@[simp] theorem finish_cur (c : Cause) (s : State) : (finish c s).cur = s.cur := rfl

@[simp] theorem finish_rd (c : Cause) (s : State) : (finish c s).rd = s.rd := rfl

@[simp] theorem finish_lzw (c : Cause) (s : State) : (finish c s).lzw = s.lzw := rfl

@[simp] theorem finish_pal (c : Cause) (s : State) : (finish c s).pal = s.pal := rfl

@[simp] theorem finish_mem (c : Cause) (s : State) : (finish c s).mem = s.mem := rfl

@[simp] theorem finish_input (c : Cause) (s : State) : (finish c s).input = s.input := rfl

@[simp] theorem finish_inEof (c : Cause) (s : State) : (finish c s).inEof = s.inEof := rfl

@[simp] theorem finish_rdata (c : Cause) (s : State) : (finish c s).rdata = s.rdata := rfl

@[simp] theorem finish_frameReply (c : Cause) (s : State) : (finish c s).frameReply = s.frameReply := rfl

@[simp] theorem finish_agenda (c : Cause) (s : State) : (finish c s).agenda = s.agenda := rfl

@[simp] theorem finish_draws (c : Cause) (s : State) : (finish c s).draws = s.draws := rfl

@[simp] theorem finish_resets (c : Cause) (s : State) : (finish c s).resets = s.resets := rfl

/-! ### `feedInput` (R62) -/

@[simp] theorem feedInput_regs (bytes : List Byte) (s : State) : (feedInput bytes s).regs = s.regs := rfl

@[simp] theorem feedInput_cfg (bytes : List Byte) (s : State) : (feedInput bytes s).cfg = s.cfg := rfl

@[simp] theorem feedInput_phase (bytes : List Byte) (s : State) : (feedInput bytes s).phase = s.phase := rfl

@[simp] theorem feedInput_pend (bytes : List Byte) (s : State) : (feedInput bytes s).pend = s.pend := rfl

@[simp] theorem feedInput_extra (bytes : List Byte) (s : State) : (feedInput bytes s).extra = s.extra := rfl

@[simp] theorem feedInput_noEnd (bytes : List Byte) (s : State) : (feedInput bytes s).noEnd = s.noEnd := rfl

@[simp] theorem feedInput_cur (bytes : List Byte) (s : State) : (feedInput bytes s).cur = s.cur := rfl

@[simp] theorem feedInput_rd (bytes : List Byte) (s : State) : (feedInput bytes s).rd = s.rd := rfl

@[simp] theorem feedInput_lzw (bytes : List Byte) (s : State) : (feedInput bytes s).lzw = s.lzw := rfl

@[simp] theorem feedInput_pal (bytes : List Byte) (s : State) : (feedInput bytes s).pal = s.pal := rfl

@[simp] theorem feedInput_mem (bytes : List Byte) (s : State) : (feedInput bytes s).mem = s.mem := rfl

@[simp] theorem feedInput_input (bytes : List Byte) (s : State) : (feedInput bytes s).input = s.input ++ bytes := rfl

@[simp] theorem feedInput_inEof (bytes : List Byte) (s : State) : (feedInput bytes s).inEof = false := rfl

@[simp] theorem feedInput_rdata (bytes : List Byte) (s : State) : (feedInput bytes s).rdata = s.rdata := rfl

@[simp] theorem feedInput_frameReply (bytes : List Byte) (s : State) : (feedInput bytes s).frameReply = s.frameReply := rfl

@[simp] theorem feedInput_agenda (bytes : List Byte) (s : State) : (feedInput bytes s).agenda = s.agenda := rfl

@[simp] theorem feedInput_draws (bytes : List Byte) (s : State) : (feedInput bytes s).draws = s.draws := rfl

@[simp] theorem feedInput_resets (bytes : List Byte) (s : State) : (feedInput bytes s).resets = s.resets := rfl

/-! ### `endInput` (R62) -/

@[simp] theorem endInput_regs (s : State) : (endInput s).regs = s.regs := rfl

@[simp] theorem endInput_cfg (s : State) : (endInput s).cfg = s.cfg := rfl

@[simp] theorem endInput_phase (s : State) : (endInput s).phase = s.phase := rfl

@[simp] theorem endInput_pend (s : State) : (endInput s).pend = s.pend := rfl

@[simp] theorem endInput_extra (s : State) : (endInput s).extra = s.extra := rfl

@[simp] theorem endInput_noEnd (s : State) : (endInput s).noEnd = s.noEnd := rfl

@[simp] theorem endInput_cur (s : State) : (endInput s).cur = s.cur := rfl

@[simp] theorem endInput_rd (s : State) : (endInput s).rd = s.rd := rfl

@[simp] theorem endInput_lzw (s : State) : (endInput s).lzw = s.lzw := rfl

@[simp] theorem endInput_pal (s : State) : (endInput s).pal = s.pal := rfl

@[simp] theorem endInput_mem (s : State) : (endInput s).mem = s.mem := rfl

@[simp] theorem endInput_input (s : State) : (endInput s).input = s.input := rfl

@[simp] theorem endInput_inEof (s : State) : (endInput s).inEof = true := rfl

@[simp] theorem endInput_rdata (s : State) : (endInput s).rdata = s.rdata := rfl

@[simp] theorem endInput_frameReply (s : State) : (endInput s).frameReply = s.frameReply := rfl

@[simp] theorem endInput_agenda (s : State) : (endInput s).agenda = s.agenda := rfl

@[simp] theorem endInput_draws (s : State) : (endInput s).draws = s.draws := rfl

@[simp] theorem endInput_resets (s : State) : (endInput s).resets = s.resets := rfl

/-! ### `withdrawInput` (R304) -/

@[simp] theorem withdrawInput_regs (n : Nat) (s : State) : (withdrawInput n s).regs = s.regs := rfl

@[simp] theorem withdrawInput_cfg (n : Nat) (s : State) : (withdrawInput n s).cfg = s.cfg := rfl

@[simp] theorem withdrawInput_phase (n : Nat) (s : State) : (withdrawInput n s).phase = s.phase := rfl

@[simp] theorem withdrawInput_pend (n : Nat) (s : State) : (withdrawInput n s).pend = s.pend := rfl

@[simp] theorem withdrawInput_extra (n : Nat) (s : State) : (withdrawInput n s).extra = s.extra := rfl

@[simp] theorem withdrawInput_noEnd (n : Nat) (s : State) : (withdrawInput n s).noEnd = s.noEnd := rfl

@[simp] theorem withdrawInput_cur (n : Nat) (s : State) : (withdrawInput n s).cur = s.cur := rfl

@[simp] theorem withdrawInput_rd (n : Nat) (s : State) : (withdrawInput n s).rd = s.rd := rfl

@[simp] theorem withdrawInput_lzw (n : Nat) (s : State) : (withdrawInput n s).lzw = s.lzw := rfl

@[simp] theorem withdrawInput_pal (n : Nat) (s : State) : (withdrawInput n s).pal = s.pal := rfl

@[simp] theorem withdrawInput_mem (n : Nat) (s : State) : (withdrawInput n s).mem = s.mem := rfl

@[simp] theorem withdrawInput_input (n : Nat) (s : State) : (withdrawInput n s).input = s.input.drop n := rfl

@[simp] theorem withdrawInput_inEof (n : Nat) (s : State) : (withdrawInput n s).inEof = s.inEof := rfl

@[simp] theorem withdrawInput_rdata (n : Nat) (s : State) : (withdrawInput n s).rdata = s.rdata := rfl

@[simp] theorem withdrawInput_frameReply (n : Nat) (s : State) : (withdrawInput n s).frameReply = s.frameReply := rfl

@[simp] theorem withdrawInput_agenda (n : Nat) (s : State) : (withdrawInput n s).agenda = s.agenda := rfl

@[simp] theorem withdrawInput_draws (n : Nat) (s : State) : (withdrawInput n s).draws = s.draws := rfl

@[simp] theorem withdrawInput_resets (n : Nat) (s : State) : (withdrawInput n s).resets = s.resets := rfl

/-! ### `resetBlock` (R300) -/

@[simp] theorem resetBlock_regs (s : State) : (resetBlock s).regs = State.reset.regs := rfl

@[simp] theorem resetBlock_cfg (s : State) : (resetBlock s).cfg = State.reset.cfg := rfl

@[simp] theorem resetBlock_phase (s : State) : (resetBlock s).phase = State.reset.phase := rfl

@[simp] theorem resetBlock_pend (s : State) : (resetBlock s).pend = State.reset.pend := rfl

@[simp] theorem resetBlock_extra (s : State) : (resetBlock s).extra = State.reset.extra := rfl

@[simp] theorem resetBlock_noEnd (s : State) : (resetBlock s).noEnd = State.reset.noEnd := rfl

@[simp] theorem resetBlock_cur (s : State) : (resetBlock s).cur = State.reset.cur := rfl

@[simp] theorem resetBlock_rd (s : State) : (resetBlock s).rd = State.reset.rd := rfl

@[simp] theorem resetBlock_lzw (s : State) : (resetBlock s).lzw = State.reset.lzw := rfl

@[simp] theorem resetBlock_pal (s : State) : (resetBlock s).pal = State.reset.pal := rfl

@[simp] theorem resetBlock_mem (s : State) : (resetBlock s).mem = s.mem := rfl

@[simp] theorem resetBlock_input (s : State) : (resetBlock s).input = s.input := rfl

@[simp] theorem resetBlock_inEof (s : State) : (resetBlock s).inEof = s.inEof := rfl

@[simp] theorem resetBlock_rdata (s : State) : (resetBlock s).rdata = s.rdata := rfl

@[simp] theorem resetBlock_frameReply (s : State) : (resetBlock s).frameReply = s.frameReply := rfl

@[simp] theorem resetBlock_agenda (s : State) : (resetBlock s).agenda = s.agenda := rfl

@[simp] theorem resetBlock_draws (s : State) : (resetBlock s).draws = s.draws := rfl

@[simp] theorem resetBlock_resets (s : State) : (resetBlock s).resets = s.resets + 1 := rfl

/-! ### `reinit` (R151) -/

@[simp] theorem reinit_regs (s : State) : (reinit s).regs = s.regs := rfl

@[simp] theorem reinit_cfg (s : State) : (reinit s).cfg = s.cfg := rfl

@[simp] theorem reinit_phase (s : State) : (reinit s).phase = s.phase := rfl

@[simp] theorem reinit_pend (s : State) : (reinit s).pend = s.pend := rfl

@[simp] theorem reinit_extra (s : State) : (reinit s).extra = s.extra := rfl

@[simp] theorem reinit_noEnd (s : State) : (reinit s).noEnd = s.noEnd := rfl

@[simp] theorem reinit_cur (s : State) : (reinit s).cur = s.cur := rfl

@[simp] theorem reinit_rd (s : State) : (reinit s).rd = { acc := 0, nbits := 0, exhausted := false } := rfl

@[simp] theorem reinit_lzw (s : State) : (reinit s).lzw = s.lzw := rfl

@[simp] theorem reinit_pal (s : State) : (reinit s).pal = s.pal := rfl

@[simp] theorem reinit_mem (s : State) : (reinit s).mem = s.mem := rfl

@[simp] theorem reinit_input (s : State) : (reinit s).input = s.input := rfl

@[simp] theorem reinit_inEof (s : State) : (reinit s).inEof = s.inEof := rfl

@[simp] theorem reinit_rdata (s : State) : (reinit s).rdata = s.rdata := rfl

@[simp] theorem reinit_frameReply (s : State) : (reinit s).frameReply = s.frameReply := rfl

@[simp] theorem reinit_agenda (s : State) : (reinit s).agenda = s.agenda := rfl

@[simp] theorem reinit_draws (s : State) : (reinit s).draws = s.draws := rfl

@[simp] theorem reinit_resets (s : State) : (reinit s).resets = s.resets := rfl

/-! ### `discard` (R157) -/

@[simp] theorem discard_regs (s : State) : (discard s).regs = s.regs := rfl

@[simp] theorem discard_cfg (s : State) : (discard s).cfg = s.cfg := rfl

@[simp] theorem discard_phase (s : State) : (discard s).phase = s.phase := rfl

@[simp] theorem discard_pend (s : State) : (discard s).pend = s.pend := rfl

@[simp] theorem discard_extra (s : State) : (discard s).extra = s.extra := rfl

@[simp] theorem discard_noEnd (s : State) : (discard s).noEnd = s.noEnd := rfl

@[simp] theorem discard_cur (s : State) : (discard s).cur = s.cur := rfl

@[simp] theorem discard_rd (s : State) : (discard s).rd = { s.rd with acc := 0, nbits := 0 } := rfl

@[simp] theorem discard_lzw (s : State) : (discard s).lzw = s.lzw := rfl

@[simp] theorem discard_pal (s : State) : (discard s).pal = s.pal := rfl

@[simp] theorem discard_mem (s : State) : (discard s).mem = s.mem := rfl

@[simp] theorem discard_input (s : State) : (discard s).input = s.input := rfl

@[simp] theorem discard_inEof (s : State) : (discard s).inEof = s.inEof := rfl

@[simp] theorem discard_rdata (s : State) : (discard s).rdata = s.rdata := rfl

@[simp] theorem discard_frameReply (s : State) : (discard s).frameReply = s.frameReply := rfl

@[simp] theorem discard_agenda (s : State) : (discard s).agenda = s.agenda := rfl

@[simp] theorem discard_draws (s : State) : (discard s).draws = s.draws := rfl

@[simp] theorem discard_resets (s : State) : (discard s).resets = s.resets := rfl

/-! ### `setExhausted` (R153) -/

@[simp] theorem setExhausted_regs (s : State) : (setExhausted s).regs = s.regs := rfl

@[simp] theorem setExhausted_cfg (s : State) : (setExhausted s).cfg = s.cfg := rfl

@[simp] theorem setExhausted_phase (s : State) : (setExhausted s).phase = s.phase := rfl

@[simp] theorem setExhausted_pend (s : State) : (setExhausted s).pend = s.pend := rfl

@[simp] theorem setExhausted_extra (s : State) : (setExhausted s).extra = s.extra := rfl

@[simp] theorem setExhausted_noEnd (s : State) : (setExhausted s).noEnd = s.noEnd := rfl

@[simp] theorem setExhausted_cur (s : State) : (setExhausted s).cur = s.cur := rfl

@[simp] theorem setExhausted_rd (s : State) : (setExhausted s).rd = { s.rd with exhausted := true } := rfl

@[simp] theorem setExhausted_lzw (s : State) : (setExhausted s).lzw = s.lzw := rfl

@[simp] theorem setExhausted_pal (s : State) : (setExhausted s).pal = s.pal := rfl

@[simp] theorem setExhausted_mem (s : State) : (setExhausted s).mem = s.mem := rfl

@[simp] theorem setExhausted_input (s : State) : (setExhausted s).input = s.input := rfl

@[simp] theorem setExhausted_inEof (s : State) : (setExhausted s).inEof = s.inEof := rfl

@[simp] theorem setExhausted_rdata (s : State) : (setExhausted s).rdata = s.rdata := rfl

@[simp] theorem setExhausted_frameReply (s : State) : (setExhausted s).frameReply = s.frameReply := rfl

@[simp] theorem setExhausted_agenda (s : State) : (setExhausted s).agenda = s.agenda := rfl

@[simp] theorem setExhausted_draws (s : State) : (setExhausted s).draws = s.draws := rfl

@[simp] theorem setExhausted_resets (s : State) : (setExhausted s).resets = s.resets := rfl

/-! ### `updateLzwState` (R246) -/

@[simp] theorem updateLzwState_regs (s : State) : (updateLzwState s).regs = snapshot s.regs s.lzw := rfl

@[simp] theorem updateLzwState_cfg (s : State) : (updateLzwState s).cfg = s.cfg := rfl

@[simp] theorem updateLzwState_phase (s : State) : (updateLzwState s).phase = s.phase := rfl

@[simp] theorem updateLzwState_pend (s : State) : (updateLzwState s).pend = s.pend := rfl

@[simp] theorem updateLzwState_extra (s : State) : (updateLzwState s).extra = s.extra := rfl

@[simp] theorem updateLzwState_noEnd (s : State) : (updateLzwState s).noEnd = s.noEnd := rfl

@[simp] theorem updateLzwState_cur (s : State) : (updateLzwState s).cur = s.cur := rfl

@[simp] theorem updateLzwState_rd (s : State) : (updateLzwState s).rd = s.rd := rfl

@[simp] theorem updateLzwState_lzw (s : State) : (updateLzwState s).lzw = s.lzw := rfl

@[simp] theorem updateLzwState_pal (s : State) : (updateLzwState s).pal = s.pal := rfl

@[simp] theorem updateLzwState_mem (s : State) : (updateLzwState s).mem = s.mem := rfl

@[simp] theorem updateLzwState_input (s : State) : (updateLzwState s).input = s.input := rfl

@[simp] theorem updateLzwState_inEof (s : State) : (updateLzwState s).inEof = s.inEof := rfl

@[simp] theorem updateLzwState_rdata (s : State) : (updateLzwState s).rdata = s.rdata := rfl

@[simp] theorem updateLzwState_frameReply (s : State) : (updateLzwState s).frameReply = s.frameReply := rfl

@[simp] theorem updateLzwState_agenda (s : State) : (updateLzwState s).agenda = s.agenda := rfl

@[simp] theorem updateLzwState_draws (s : State) : (updateLzwState s).draws = s.draws := rfl

@[simp] theorem updateLzwState_resets (s : State) : (updateLzwState s).resets = s.resets := rfl

/-! ### `clearTable` (R186) -/

@[simp] theorem clearTable_regs (s : State) : (clearTable s).regs = s.regs := rfl

@[simp] theorem clearTable_cfg (s : State) : (clearTable s).cfg = s.cfg := rfl

@[simp] theorem clearTable_phase (s : State) : (clearTable s).phase = s.phase := rfl

@[simp] theorem clearTable_pend (s : State) : (clearTable s).pend = s.pend := rfl

@[simp] theorem clearTable_extra (s : State) : (clearTable s).extra = s.extra := rfl

@[simp] theorem clearTable_noEnd (s : State) : (clearTable s).noEnd = s.noEnd := rfl

@[simp] theorem clearTable_cur (s : State) : (clearTable s).cur = s.cur := rfl

@[simp] theorem clearTable_rd (s : State) : (clearTable s).rd = s.rd := rfl

@[simp] theorem clearTable_lzw (s : State) : (clearTable s).lzw = resetTable s.lzw := rfl

@[simp] theorem clearTable_pal (s : State) : (clearTable s).pal = s.pal := rfl

@[simp] theorem clearTable_mem (s : State) : (clearTable s).mem = s.mem := rfl

@[simp] theorem clearTable_input (s : State) : (clearTable s).input = s.input := rfl

@[simp] theorem clearTable_inEof (s : State) : (clearTable s).inEof = s.inEof := rfl

@[simp] theorem clearTable_rdata (s : State) : (clearTable s).rdata = s.rdata := rfl

@[simp] theorem clearTable_frameReply (s : State) : (clearTable s).frameReply = s.frameReply := rfl

@[simp] theorem clearTable_agenda (s : State) : (clearTable s).agenda = s.agenda := rfl

@[simp] theorem clearTable_draws (s : State) : (clearTable s).draws = s.draws := rfl

@[simp] theorem clearTable_resets (s : State) : (clearTable s).resets = s.resets := rfl

/-! ### `setRootByte` (R232) -/

@[simp] theorem setRootByte_regs (r : Byte) (s : State) : (setRootByte r s).regs = { s.regs with lzwState := { s.regs.lzwState with rootByte := r } } := rfl

@[simp] theorem setRootByte_cfg (r : Byte) (s : State) : (setRootByte r s).cfg = s.cfg := rfl

@[simp] theorem setRootByte_phase (r : Byte) (s : State) : (setRootByte r s).phase = s.phase := rfl

@[simp] theorem setRootByte_pend (r : Byte) (s : State) : (setRootByte r s).pend = s.pend := rfl

@[simp] theorem setRootByte_extra (r : Byte) (s : State) : (setRootByte r s).extra = s.extra := rfl

@[simp] theorem setRootByte_noEnd (r : Byte) (s : State) : (setRootByte r s).noEnd = s.noEnd := rfl

@[simp] theorem setRootByte_cur (r : Byte) (s : State) : (setRootByte r s).cur = s.cur := rfl

@[simp] theorem setRootByte_rd (r : Byte) (s : State) : (setRootByte r s).rd = s.rd := rfl

@[simp] theorem setRootByte_lzw (r : Byte) (s : State) : (setRootByte r s).lzw = s.lzw := rfl

@[simp] theorem setRootByte_pal (r : Byte) (s : State) : (setRootByte r s).pal = s.pal := rfl

@[simp] theorem setRootByte_mem (r : Byte) (s : State) : (setRootByte r s).mem = s.mem := rfl

@[simp] theorem setRootByte_input (r : Byte) (s : State) : (setRootByte r s).input = s.input := rfl

@[simp] theorem setRootByte_inEof (r : Byte) (s : State) : (setRootByte r s).inEof = s.inEof := rfl

@[simp] theorem setRootByte_rdata (r : Byte) (s : State) : (setRootByte r s).rdata = s.rdata := rfl

@[simp] theorem setRootByte_frameReply (r : Byte) (s : State) : (setRootByte r s).frameReply = s.frameReply := rfl

@[simp] theorem setRootByte_agenda (r : Byte) (s : State) : (setRootByte r s).agenda = s.agenda := rfl

@[simp] theorem setRootByte_draws (r : Byte) (s : State) : (setRootByte r s).draws = s.draws := rfl

@[simp] theorem setRootByte_resets (r : Byte) (s : State) : (setRootByte r s).resets = s.resets := rfl

/-! ### `startDecoding` (R232) -/

@[simp] theorem startDecoding_regs (r : Byte) (s : State) : (startDecoding r s).regs = s.regs := rfl

@[simp] theorem startDecoding_cfg (r : Byte) (s : State) : (startDecoding r s).cfg = s.cfg := rfl

@[simp] theorem startDecoding_phase (r : Byte) (s : State) : (startDecoding r s).phase = if s.cfg.total = 0 then .tail else .fill := rfl

@[simp] theorem startDecoding_pend (r : Byte) (s : State) : (startDecoding r s).pend = s.pend := rfl

@[simp] theorem startDecoding_extra (r : Byte) (s : State) : (startDecoding r s).extra = s.extra := rfl

@[simp] theorem startDecoding_noEnd (r : Byte) (s : State) : (startDecoding r s).noEnd = s.noEnd := rfl

@[simp] theorem startDecoding_cur (r : Byte) (s : State) : (startDecoding r s).cur = s.cur := rfl

@[simp] theorem startDecoding_rd (r : Byte) (s : State) : (startDecoding r s).rd = { acc := 0, nbits := 0, exhausted := false } := rfl

@[simp] theorem startDecoding_lzw (r : Byte) (s : State) : (startDecoding r s).lzw = initLzw r s.lzw := rfl

@[simp] theorem startDecoding_pal (r : Byte) (s : State) : (startDecoding r s).pal = s.pal := rfl

@[simp] theorem startDecoding_mem (r : Byte) (s : State) : (startDecoding r s).mem = s.mem := rfl

@[simp] theorem startDecoding_input (r : Byte) (s : State) : (startDecoding r s).input = s.input := rfl

@[simp] theorem startDecoding_inEof (r : Byte) (s : State) : (startDecoding r s).inEof = s.inEof := rfl

@[simp] theorem startDecoding_rdata (r : Byte) (s : State) : (startDecoding r s).rdata = s.rdata := rfl

@[simp] theorem startDecoding_frameReply (r : Byte) (s : State) : (startDecoding r s).frameReply = s.frameReply := rfl

@[simp] theorem startDecoding_agenda (r : Byte) (s : State) : (startDecoding r s).agenda = s.agenda := rfl

@[simp] theorem startDecoding_draws (r : Byte) (s : State) : (startDecoding r s).draws = s.draws := rfl

@[simp] theorem startDecoding_resets (r : Byte) (s : State) : (startDecoding r s).resets = s.resets := rfl

/-! ### `writePixel` (R234) -/

@[simp] theorem writePixel_regs (i : Byte) (s : State) : (writePixel i s).regs = { s.regs with pixCount := s.regs.pixCount + 1 } := rfl

@[simp] theorem writePixel_cfg (i : Byte) (s : State) : (writePixel i s).cfg = s.cfg := rfl

@[simp] theorem writePixel_phase (i : Byte) (s : State) : (writePixel i s).phase = s.phase := rfl

@[simp] theorem writePixel_pend (i : Byte) (s : State) : (writePixel i s).pend = s.pend := rfl

@[simp] theorem writePixel_extra (i : Byte) (s : State) : (writePixel i s).extra = s.extra := rfl

@[simp] theorem writePixel_noEnd (i : Byte) (s : State) : (writePixel i s).noEnd = s.noEnd := rfl

@[simp] theorem writePixel_cur (i : Byte) (s : State) : (writePixel i s).cur = advance s.cfg s.cur := rfl

@[simp] theorem writePixel_rd (i : Byte) (s : State) : (writePixel i s).rd = s.rd := rfl

@[simp] theorem writePixel_lzw (i : Byte) (s : State) : (writePixel i s).lzw = s.lzw := rfl

@[simp] theorem writePixel_pal (i : Byte) (s : State) : (writePixel i s).pal = s.pal := rfl

@[simp] theorem writePixel_mem (i : Byte) (s : State) : (writePixel i s).mem = memWrite (pixAddr s.cfg s.cur.row.toNat s.cur.col.toNat) (pixelValue s i) s.cfg.bpp.toNat s.mem := rfl

@[simp] theorem writePixel_input (i : Byte) (s : State) : (writePixel i s).input = s.input := rfl

@[simp] theorem writePixel_inEof (i : Byte) (s : State) : (writePixel i s).inEof = s.inEof := rfl

@[simp] theorem writePixel_rdata (i : Byte) (s : State) : (writePixel i s).rdata = s.rdata := rfl

@[simp] theorem writePixel_frameReply (i : Byte) (s : State) : (writePixel i s).frameReply = s.frameReply := rfl

@[simp] theorem writePixel_agenda (i : Byte) (s : State) : (writePixel i s).agenda = s.agenda := rfl

@[simp] theorem writePixel_draws (i : Byte) (s : State) : (writePixel i s).draws = s.draws := rfl

@[simp] theorem writePixel_resets (i : Byte) (s : State) : (writePixel i s).resets = s.resets := rfl

/-! ### `raiseCorrupt` (R202) -/

@[simp] theorem raiseCorrupt_regs (c : Cause) (s : State) : ((raiseCorrupt c s).2).regs = s.regs := rfl

@[simp] theorem raiseCorrupt_cfg (c : Cause) (s : State) : ((raiseCorrupt c s).2).cfg = s.cfg := rfl

@[simp] theorem raiseCorrupt_phase (c : Cause) (s : State) : ((raiseCorrupt c s).2).phase = s.phase := rfl

@[simp] theorem raiseCorrupt_pend (c : Cause) (s : State) : ((raiseCorrupt c s).2).pend = s.pend := rfl

@[simp] theorem raiseCorrupt_extra (c : Cause) (s : State) : ((raiseCorrupt c s).2).extra = s.extra := rfl

@[simp] theorem raiseCorrupt_noEnd (c : Cause) (s : State) : ((raiseCorrupt c s).2).noEnd = s.noEnd := rfl

@[simp] theorem raiseCorrupt_cur (c : Cause) (s : State) : ((raiseCorrupt c s).2).cur = s.cur := rfl

@[simp] theorem raiseCorrupt_rd (c : Cause) (s : State) : ((raiseCorrupt c s).2).rd = s.rd := rfl

@[simp] theorem raiseCorrupt_lzw (c : Cause) (s : State) : ((raiseCorrupt c s).2).lzw = { s.lzw with stack := [], result := .corrupt c } := rfl

@[simp] theorem raiseCorrupt_pal (c : Cause) (s : State) : ((raiseCorrupt c s).2).pal = s.pal := rfl

@[simp] theorem raiseCorrupt_mem (c : Cause) (s : State) : ((raiseCorrupt c s).2).mem = s.mem := rfl

@[simp] theorem raiseCorrupt_input (c : Cause) (s : State) : ((raiseCorrupt c s).2).input = s.input := rfl

@[simp] theorem raiseCorrupt_inEof (c : Cause) (s : State) : ((raiseCorrupt c s).2).inEof = s.inEof := rfl

@[simp] theorem raiseCorrupt_rdata (c : Cause) (s : State) : ((raiseCorrupt c s).2).rdata = s.rdata := rfl

@[simp] theorem raiseCorrupt_frameReply (c : Cause) (s : State) : ((raiseCorrupt c s).2).frameReply = s.frameReply := rfl

@[simp] theorem raiseCorrupt_agenda (c : Cause) (s : State) : ((raiseCorrupt c s).2).agenda = s.agenda := rfl

@[simp] theorem raiseCorrupt_draws (c : Cause) (s : State) : ((raiseCorrupt c s).2).draws = s.draws := rfl

@[simp] theorem raiseCorrupt_resets (c : Cause) (s : State) : ((raiseCorrupt c s).2).resets = s.resets := rfl

/-! ### `endOfData` (R187) -/

@[simp] theorem endOfData_regs (s : State) : ((endOfData s).2).regs = s.regs := rfl

@[simp] theorem endOfData_cfg (s : State) : ((endOfData s).2).cfg = s.cfg := rfl

@[simp] theorem endOfData_phase (s : State) : ((endOfData s).2).phase = s.phase := rfl

@[simp] theorem endOfData_pend (s : State) : ((endOfData s).2).pend = s.pend := rfl

@[simp] theorem endOfData_extra (s : State) : ((endOfData s).2).extra = s.extra := rfl

@[simp] theorem endOfData_noEnd (s : State) : ((endOfData s).2).noEnd = s.noEnd := rfl

@[simp] theorem endOfData_cur (s : State) : ((endOfData s).2).cur = s.cur := rfl

@[simp] theorem endOfData_rd (s : State) : ((endOfData s).2).rd = s.rd := rfl

@[simp] theorem endOfData_lzw (s : State) : ((endOfData s).2).lzw = { s.lzw with result := .endOfData } := rfl

@[simp] theorem endOfData_pal (s : State) : ((endOfData s).2).pal = s.pal := rfl

@[simp] theorem endOfData_mem (s : State) : ((endOfData s).2).mem = s.mem := rfl

@[simp] theorem endOfData_input (s : State) : ((endOfData s).2).input = s.input := rfl

@[simp] theorem endOfData_inEof (s : State) : ((endOfData s).2).inEof = s.inEof := rfl

@[simp] theorem endOfData_rdata (s : State) : ((endOfData s).2).rdata = s.rdata := rfl

@[simp] theorem endOfData_frameReply (s : State) : ((endOfData s).2).frameReply = s.frameReply := rfl

@[simp] theorem endOfData_agenda (s : State) : ((endOfData s).2).agenda = s.agenda := rfl

@[simp] theorem endOfData_draws (s : State) : ((endOfData s).2).draws = s.draws := rfl

@[simp] theorem endOfData_resets (s : State) : ((endOfData s).2).resets = s.resets := rfl

/-! ### `streamEnded` (R185) -/

@[simp] theorem streamEnded_regs (s : State) : ((streamEnded s).2).regs = s.regs := rfl

@[simp] theorem streamEnded_cfg (s : State) : ((streamEnded s).2).cfg = s.cfg := rfl

@[simp] theorem streamEnded_phase (s : State) : ((streamEnded s).2).phase = s.phase := rfl

@[simp] theorem streamEnded_pend (s : State) : ((streamEnded s).2).pend = s.pend := rfl

@[simp] theorem streamEnded_extra (s : State) : ((streamEnded s).2).extra = s.extra := rfl

@[simp] theorem streamEnded_noEnd (s : State) : ((streamEnded s).2).noEnd = true := rfl

@[simp] theorem streamEnded_cur (s : State) : ((streamEnded s).2).cur = s.cur := rfl

@[simp] theorem streamEnded_rd (s : State) : ((streamEnded s).2).rd = s.rd := rfl

@[simp] theorem streamEnded_lzw (s : State) : ((streamEnded s).2).lzw = { s.lzw with result := .endOfData } := rfl

@[simp] theorem streamEnded_pal (s : State) : ((streamEnded s).2).pal = s.pal := rfl

@[simp] theorem streamEnded_mem (s : State) : ((streamEnded s).2).mem = s.mem := rfl

@[simp] theorem streamEnded_input (s : State) : ((streamEnded s).2).input = s.input := rfl

@[simp] theorem streamEnded_inEof (s : State) : ((streamEnded s).2).inEof = s.inEof := rfl

@[simp] theorem streamEnded_rdata (s : State) : ((streamEnded s).2).rdata = s.rdata := rfl

@[simp] theorem streamEnded_frameReply (s : State) : ((streamEnded s).2).frameReply = s.frameReply := rfl

@[simp] theorem streamEnded_agenda (s : State) : ((streamEnded s).2).agenda = s.agenda := rfl

@[simp] theorem streamEnded_draws (s : State) : ((streamEnded s).2).draws = s.draws := rfl

@[simp] theorem streamEnded_resets (s : State) : ((streamEnded s).2).resets = s.resets := rfl

/-! ### `schedule` (R7) -/

@[simp] theorem schedule_regs (m : Move) (s : State) : (schedule m s).regs = s.regs := rfl

@[simp] theorem schedule_cfg (m : Move) (s : State) : (schedule m s).cfg = s.cfg := rfl

@[simp] theorem schedule_phase (m : Move) (s : State) : (schedule m s).phase = s.phase := rfl

@[simp] theorem schedule_pend (m : Move) (s : State) : (schedule m s).pend = s.pend := rfl

@[simp] theorem schedule_extra (m : Move) (s : State) : (schedule m s).extra = s.extra := rfl

@[simp] theorem schedule_noEnd (m : Move) (s : State) : (schedule m s).noEnd = s.noEnd := rfl

@[simp] theorem schedule_cur (m : Move) (s : State) : (schedule m s).cur = s.cur := rfl

@[simp] theorem schedule_rd (m : Move) (s : State) : (schedule m s).rd = s.rd := rfl

@[simp] theorem schedule_lzw (m : Move) (s : State) : (schedule m s).lzw = s.lzw := rfl

@[simp] theorem schedule_pal (m : Move) (s : State) : (schedule m s).pal = s.pal := rfl

@[simp] theorem schedule_mem (m : Move) (s : State) : (schedule m s).mem = s.mem := rfl

@[simp] theorem schedule_input (m : Move) (s : State) : (schedule m s).input = s.input := rfl

@[simp] theorem schedule_inEof (m : Move) (s : State) : (schedule m s).inEof = s.inEof := rfl

@[simp] theorem schedule_rdata (m : Move) (s : State) : (schedule m s).rdata = s.rdata := rfl

@[simp] theorem schedule_frameReply (m : Move) (s : State) : (schedule m s).frameReply = s.frameReply := rfl

@[simp] theorem schedule_agenda (m : Move) (s : State) : (schedule m s).agenda = m :: s.agenda := rfl

@[simp] theorem schedule_draws (m : Move) (s : State) : (schedule m s).draws = s.draws := rfl

@[simp] theorem schedule_resets (m : Move) (s : State) : (schedule m s).resets = s.resets := rfl

/-! ### `startFrame` (R113): the fields it never writes -/

@[simp] theorem startFrame_pend (s : State) : (startFrame s).pend = s.pend := by
  unfold startFrame; split <;> rfl

@[simp] theorem startFrame_rd (s : State) : (startFrame s).rd = s.rd := by
  unfold startFrame; split <;> rfl

@[simp] theorem startFrame_lzw (s : State) : (startFrame s).lzw = s.lzw := by
  unfold startFrame; split <;> rfl

@[simp] theorem startFrame_pal (s : State) : (startFrame s).pal = s.pal := by
  unfold startFrame; split <;> rfl

@[simp] theorem startFrame_mem (s : State) : (startFrame s).mem = s.mem := by
  unfold startFrame; split <;> rfl

@[simp] theorem startFrame_input (s : State) : (startFrame s).input = s.input := by
  unfold startFrame; split <;> rfl

@[simp] theorem startFrame_inEof (s : State) : (startFrame s).inEof = s.inEof := by
  unfold startFrame; split <;> rfl

@[simp] theorem startFrame_rdata (s : State) : (startFrame s).rdata = s.rdata := by
  unfold startFrame; split <;> rfl

@[simp] theorem startFrame_frameReply (s : State) : (startFrame s).frameReply = s.frameReply := by
  unfold startFrame; split <;> rfl

@[simp] theorem startFrame_agenda (s : State) : (startFrame s).agenda = s.agenda := by
  unfold startFrame; split <;> rfl

@[simp] theorem startFrame_draws (s : State) : (startFrame s).draws = s.draws := by
  unfold startFrame; split <;> rfl

@[simp] theorem startFrame_resets (s : State) : (startFrame s).resets = s.resets := by
  unfold startFrame; split <;> rfl

/-! ### `abortFrame` (R116): the fields it never writes -/

@[simp] theorem abortFrame_cfg (s : State) : (abortFrame s).cfg = s.cfg := by
  unfold abortFrame; split <;> rfl

@[simp] theorem abortFrame_pend (s : State) : (abortFrame s).pend = s.pend := by
  unfold abortFrame; split <;> rfl

@[simp] theorem abortFrame_extra (s : State) : (abortFrame s).extra = s.extra := by
  unfold abortFrame; split <;> rfl

@[simp] theorem abortFrame_noEnd (s : State) : (abortFrame s).noEnd = s.noEnd := by
  unfold abortFrame; split <;> rfl

@[simp] theorem abortFrame_cur (s : State) : (abortFrame s).cur = s.cur := by
  unfold abortFrame; split <;> rfl

@[simp] theorem abortFrame_rd (s : State) : (abortFrame s).rd = s.rd := by
  unfold abortFrame; split <;> rfl

@[simp] theorem abortFrame_lzw (s : State) : (abortFrame s).lzw = s.lzw := by
  unfold abortFrame; split <;> rfl

@[simp] theorem abortFrame_pal (s : State) : (abortFrame s).pal = s.pal := by
  unfold abortFrame; split <;> rfl

@[simp] theorem abortFrame_mem (s : State) : (abortFrame s).mem = s.mem := by
  unfold abortFrame; split <;> rfl

@[simp] theorem abortFrame_input (s : State) : (abortFrame s).input = s.input := by
  unfold abortFrame; split <;> rfl

@[simp] theorem abortFrame_inEof (s : State) : (abortFrame s).inEof = s.inEof := by
  unfold abortFrame; split <;> rfl

@[simp] theorem abortFrame_rdata (s : State) : (abortFrame s).rdata = s.rdata := by
  unfold abortFrame; split <;> rfl

@[simp] theorem abortFrame_frameReply (s : State) : (abortFrame s).frameReply = s.frameReply := by
  unfold abortFrame; split <;> rfl

@[simp] theorem abortFrame_agenda (s : State) : (abortFrame s).agenda = s.agenda := by
  unfold abortFrame; split <;> rfl

@[simp] theorem abortFrame_draws (s : State) : (abortFrame s).draws = s.draws := by
  unfold abortFrame; split <;> rfl

@[simp] theorem abortFrame_resets (s : State) : (abortFrame s).resets = s.resets := by
  unfold abortFrame; split <;> rfl

/-! ### `corruptExit` (R243): the fields it never writes -/

@[simp] theorem corruptExit_cfg (c : Cause) (s : State) : (corruptExit c s).cfg = s.cfg := by
  unfold corruptExit; split <;> rfl

@[simp] theorem corruptExit_extra (c : Cause) (s : State) : (corruptExit c s).extra = s.extra := by
  unfold corruptExit; split <;> rfl

@[simp] theorem corruptExit_noEnd (c : Cause) (s : State) : (corruptExit c s).noEnd = s.noEnd := by
  unfold corruptExit; split <;> rfl

@[simp] theorem corruptExit_cur (c : Cause) (s : State) : (corruptExit c s).cur = s.cur := by
  unfold corruptExit; split <;> rfl

@[simp] theorem corruptExit_rd (c : Cause) (s : State) : (corruptExit c s).rd = s.rd := by
  unfold corruptExit; split <;> rfl

@[simp] theorem corruptExit_lzw (c : Cause) (s : State) : (corruptExit c s).lzw = s.lzw := by
  unfold corruptExit; split <;> rfl

@[simp] theorem corruptExit_pal (c : Cause) (s : State) : (corruptExit c s).pal = s.pal := by
  unfold corruptExit; split <;> rfl

@[simp] theorem corruptExit_mem (c : Cause) (s : State) : (corruptExit c s).mem = s.mem := by
  unfold corruptExit; split <;> rfl

@[simp] theorem corruptExit_input (c : Cause) (s : State) : (corruptExit c s).input = s.input := by
  unfold corruptExit; split <;> rfl

@[simp] theorem corruptExit_inEof (c : Cause) (s : State) : (corruptExit c s).inEof = s.inEof := by
  unfold corruptExit; split <;> rfl

@[simp] theorem corruptExit_rdata (c : Cause) (s : State) : (corruptExit c s).rdata = s.rdata := by
  unfold corruptExit; split <;> rfl

@[simp] theorem corruptExit_frameReply (c : Cause) (s : State) : (corruptExit c s).frameReply = s.frameReply := by
  unfold corruptExit; split <;> rfl

@[simp] theorem corruptExit_agenda (c : Cause) (s : State) : (corruptExit c s).agenda = s.agenda := by
  unfold corruptExit; split <;> rfl

@[simp] theorem corruptExit_draws (c : Cause) (s : State) : (corruptExit c s).draws = s.draws := by
  unfold corruptExit; split <;> rfl

@[simp] theorem corruptExit_resets (c : Cause) (s : State) : (corruptExit c s).resets = s.resets := by
  unfold corruptExit; split <;> rfl

/-! ### `refill` (R153): the fields it never writes -/

@[simp] theorem refill_regs (n : Byte) (data : List Byte) (s : State) : (refill n data s).regs = s.regs := by
  unfold refill; split <;> rfl

@[simp] theorem refill_cfg (n : Byte) (data : List Byte) (s : State) : (refill n data s).cfg = s.cfg := by
  unfold refill; split <;> rfl

@[simp] theorem refill_phase (n : Byte) (data : List Byte) (s : State) : (refill n data s).phase = s.phase := by
  unfold refill; split <;> rfl

@[simp] theorem refill_pend (n : Byte) (data : List Byte) (s : State) : (refill n data s).pend = s.pend := by
  unfold refill; split <;> rfl

@[simp] theorem refill_extra (n : Byte) (data : List Byte) (s : State) : (refill n data s).extra = s.extra := by
  unfold refill; split <;> rfl

@[simp] theorem refill_noEnd (n : Byte) (data : List Byte) (s : State) : (refill n data s).noEnd = s.noEnd := by
  unfold refill; split <;> rfl

@[simp] theorem refill_cur (n : Byte) (data : List Byte) (s : State) : (refill n data s).cur = s.cur := by
  unfold refill; split <;> rfl

@[simp] theorem refill_lzw (n : Byte) (data : List Byte) (s : State) : (refill n data s).lzw = s.lzw := by
  unfold refill; split <;> rfl

@[simp] theorem refill_pal (n : Byte) (data : List Byte) (s : State) : (refill n data s).pal = s.pal := by
  unfold refill; split <;> rfl

@[simp] theorem refill_mem (n : Byte) (data : List Byte) (s : State) : (refill n data s).mem = s.mem := by
  unfold refill; split <;> rfl

@[simp] theorem refill_input (n : Byte) (data : List Byte) (s : State) : (refill n data s).input = s.input := by
  unfold refill; split <;> rfl

@[simp] theorem refill_inEof (n : Byte) (data : List Byte) (s : State) : (refill n data s).inEof = s.inEof := by
  unfold refill; split <;> rfl

@[simp] theorem refill_rdata (n : Byte) (data : List Byte) (s : State) : (refill n data s).rdata = s.rdata := by
  unfold refill; split <;> rfl

@[simp] theorem refill_frameReply (n : Byte) (data : List Byte) (s : State) : (refill n data s).frameReply = s.frameReply := by
  unfold refill; split <;> rfl

@[simp] theorem refill_agenda (n : Byte) (data : List Byte) (s : State) : (refill n data s).agenda = s.agenda := by
  unfold refill; split <;> rfl

@[simp] theorem refill_draws (n : Byte) (data : List Byte) (s : State) : (refill n data s).draws = s.draws := by
  unfold refill; split <;> rfl

@[simp] theorem refill_resets (n : Byte) (data : List Byte) (s : State) : (refill n data s).resets = s.resets := by
  unfold refill; split <;> rfl

/-! ### `toTailWhenFull` (R234): the fields it never writes -/

@[simp] theorem toTailWhenFull_regs (s : State) : (toTailWhenFull s).regs = s.regs := by
  unfold toTailWhenFull; split <;> rfl

@[simp] theorem toTailWhenFull_cfg (s : State) : (toTailWhenFull s).cfg = s.cfg := by
  unfold toTailWhenFull; split <;> rfl

@[simp] theorem toTailWhenFull_pend (s : State) : (toTailWhenFull s).pend = s.pend := by
  unfold toTailWhenFull; split <;> rfl

@[simp] theorem toTailWhenFull_extra (s : State) : (toTailWhenFull s).extra = s.extra := by
  unfold toTailWhenFull; split <;> rfl

@[simp] theorem toTailWhenFull_noEnd (s : State) : (toTailWhenFull s).noEnd = s.noEnd := by
  unfold toTailWhenFull; split <;> rfl

@[simp] theorem toTailWhenFull_cur (s : State) : (toTailWhenFull s).cur = s.cur := by
  unfold toTailWhenFull; split <;> rfl

@[simp] theorem toTailWhenFull_rd (s : State) : (toTailWhenFull s).rd = s.rd := by
  unfold toTailWhenFull; split <;> rfl

@[simp] theorem toTailWhenFull_lzw (s : State) : (toTailWhenFull s).lzw = s.lzw := by
  unfold toTailWhenFull; split <;> rfl

@[simp] theorem toTailWhenFull_pal (s : State) : (toTailWhenFull s).pal = s.pal := by
  unfold toTailWhenFull; split <;> rfl

@[simp] theorem toTailWhenFull_mem (s : State) : (toTailWhenFull s).mem = s.mem := by
  unfold toTailWhenFull; split <;> rfl

@[simp] theorem toTailWhenFull_input (s : State) : (toTailWhenFull s).input = s.input := by
  unfold toTailWhenFull; split <;> rfl

@[simp] theorem toTailWhenFull_inEof (s : State) : (toTailWhenFull s).inEof = s.inEof := by
  unfold toTailWhenFull; split <;> rfl

@[simp] theorem toTailWhenFull_rdata (s : State) : (toTailWhenFull s).rdata = s.rdata := by
  unfold toTailWhenFull; split <;> rfl

@[simp] theorem toTailWhenFull_frameReply (s : State) : (toTailWhenFull s).frameReply = s.frameReply := by
  unfold toTailWhenFull; split <;> rfl

@[simp] theorem toTailWhenFull_agenda (s : State) : (toTailWhenFull s).agenda = s.agenda := by
  unfold toTailWhenFull; split <;> rfl

@[simp] theorem toTailWhenFull_draws (s : State) : (toTailWhenFull s).draws = s.draws := by
  unfold toTailWhenFull; split <;> rfl

@[simp] theorem toTailWhenFull_resets (s : State) : (toTailWhenFull s).resets = s.resets := by
  unfold toTailWhenFull; split <;> rfl

/-! ### `readFrame` (R70): the fields it never writes -/

@[simp] theorem readFrame_regs (a : Word) (s : State) : (readFrame a s).regs = s.regs := by
  unfold readFrame; split <;> rfl

@[simp] theorem readFrame_cfg (a : Word) (s : State) : (readFrame a s).cfg = s.cfg := by
  unfold readFrame; split <;> rfl

@[simp] theorem readFrame_phase (a : Word) (s : State) : (readFrame a s).phase = s.phase := by
  unfold readFrame; split <;> rfl

@[simp] theorem readFrame_pend (a : Word) (s : State) : (readFrame a s).pend = s.pend := by
  unfold readFrame; split <;> rfl

@[simp] theorem readFrame_extra (a : Word) (s : State) : (readFrame a s).extra = s.extra := by
  unfold readFrame; split <;> rfl

@[simp] theorem readFrame_noEnd (a : Word) (s : State) : (readFrame a s).noEnd = s.noEnd := by
  unfold readFrame; split <;> rfl

@[simp] theorem readFrame_cur (a : Word) (s : State) : (readFrame a s).cur = s.cur := by
  unfold readFrame; split <;> rfl

@[simp] theorem readFrame_rd (a : Word) (s : State) : (readFrame a s).rd = s.rd := by
  unfold readFrame; split <;> rfl

@[simp] theorem readFrame_lzw (a : Word) (s : State) : (readFrame a s).lzw = s.lzw := by
  unfold readFrame; split <;> rfl

@[simp] theorem readFrame_pal (a : Word) (s : State) : (readFrame a s).pal = s.pal := by
  unfold readFrame; split <;> rfl

@[simp] theorem readFrame_mem (a : Word) (s : State) : (readFrame a s).mem = s.mem := by
  unfold readFrame; split <;> rfl

@[simp] theorem readFrame_input (a : Word) (s : State) : (readFrame a s).input = s.input := by
  unfold readFrame; split <;> rfl

@[simp] theorem readFrame_inEof (a : Word) (s : State) : (readFrame a s).inEof = s.inEof := by
  unfold readFrame; split <;> rfl

@[simp] theorem readFrame_rdata (a : Word) (s : State) : (readFrame a s).rdata = s.rdata := by
  unfold readFrame; split <;> rfl

@[simp] theorem readFrame_agenda (a : Word) (s : State) : (readFrame a s).agenda = s.agenda := by
  unfold readFrame; split <;> rfl

@[simp] theorem readFrame_resets (a : Word) (s : State) : (readFrame a s).resets = s.resets := by
  unfold readFrame; split <;> rfl

end Sys2Proof.Machine
end

