-- ==== Sys2Proof/Laws/Input.lean ====
section
/-! SUPPORT. What the input port and the reader can do: bytes taken in order, sub-blocks, and the loop of `NextCode`. -/

namespace Sys2Proof.Machine

/-- `s` after bytes have been taken from the front of `IN`, leaving `rest`, and counted (R33, R62). -/
def tookBytes (n : Nat) (rest : List Byte) (s : State) : State :=
  { s with input := rest, regs := { s.regs with bytesIn := s.regs.bytesIn + BitVec.ofNat 32 n } }

theorem tookBytes_zero (s : State) : tookBytes 0 s.input s = s := by
  simp [tookBytes]

theorem tookBytes_tookBytes (m n : Nat) (r1 r2 : List Byte) (s : State) :
    tookBytes n r2 (tookBytes m r1 s) = tookBytes (m + n) r2 s := by
  simp [tookBytes, BitVec.ofNat_add, BitVec.add_assoc]

/-! ### Taking bytes -/

theorem takeByte_nil {s : State} (h : s.input = []) : takeByte s = (none, s) := by
  simp [takeByte, h]

theorem takeByte_cons {s : State} {b : Byte} {rest : List Byte} (h : s.input = b :: rest) :
    takeByte s = (some b, tookBytes 1 rest s) := by
  simp [takeByte, tookBytes, h]

/-- Everything `TakeByte` can do (R62). -/
theorem takeByte_cases (s : State) :
    (s.input = [] ∧ takeByte s = (none, s))
      ∨ ∃ b rest, s.input = b :: rest ∧ takeByte s = (some b, tookBytes 1 rest s) := by
  cases h : s.input with
  | nil => exact .inl ⟨rfl, takeByte_nil h⟩
  | cons b rest => exact .inr ⟨b, rest, rfl, takeByte_cons h⟩

/-- Enough bytes: they are taken in order. -/
theorem takeBytes_enough (data rest : List Byte) (s : State) (h : s.input = data ++ rest) :
    takeBytes data.length s = (some data, tookBytes data.length rest s) := by
  induction data generalizing s with
  | nil =>
    have e : rest = s.input := by simpa using h.symm
    subst e
    rw [List.length_nil, tookBytes_zero]; rfl
  | cons b data ih =>
    have hb : s.input = b :: (data ++ rest) := h
    have e := ih (tookBytes 1 (data ++ rest) s) rfl
    rw [List.length_cons, takeBytes, takeByte_cons hb]
    simp only [e, tookBytes_tookBytes, Nat.add_comm 1]

/-- Too few bytes: all of them are taken, and the answer is `EOF` (R152). -/
theorem takeBytes_short (n : Nat) (s : State) (h : s.input.length < n) :
    takeBytes n s = (none, tookBytes s.input.length [] s) := by
  induction n generalizing s with
  | zero => omega
  | succ n ih =>
    rcases takeByte_cases s with ⟨hi, ht⟩ | ⟨b, rest, hi, ht⟩
    · rw [takeBytes, ht]
      have e := tookBytes_zero s
      rw [hi] at e
      simp [hi, e]
    · have hl : (tookBytes 1 rest s).input.length < n := by
        rw [hi, List.length_cons] at h
        simpa [tookBytes] using h
      rw [takeBytes, ht]
      simp only [ih _ hl, tookBytes_tookBytes, hi, List.length_cons]
      simp [tookBytes, Nat.add_comm 1]

/-! ### Sub-blocks -/

theorem readPayload_enough (n : Byte) (data rest : List Byte) (s : State) (hd : data.length = n.toNat)
    (h : s.input = data ++ rest) : readPayload n s = (.block n data, tookBytes data.length rest s) := by
  rw [readPayload, ← hd, takeBytes_enough data rest s h]

theorem readPayload_short (n : Byte) (s : State) (h : s.input.length < n.toNat) :
    readPayload n s = (.eof, tookBytes s.input.length [] s) := by
  rw [readPayload, takeBytes_short n.toNat s h]

/-- Everything the payload of a sub-block can do (R152). -/
theorem readPayload_cases (n : Byte) (s : State) :
    (s.input.length < n.toNat ∧ readPayload n s = (.eof, tookBytes s.input.length [] s))
      ∨ ∃ data rest, data.length = n.toNat ∧ s.input = data ++ rest
          ∧ readPayload n s = (.block n data, tookBytes data.length rest s) := by
  by_cases h : s.input.length < n.toNat
  · exact .inl ⟨h, readPayload_short n s h⟩
  · have hd : (s.input.take n.toNat).length = n.toNat := by rw [List.length_take]; omega
    have hi : s.input = s.input.take n.toNat ++ s.input.drop n.toNat := (List.take_append_drop _ _).symm
    exact .inr ⟨_, _, hd, hi, readPayload_enough n _ _ s hd hi⟩

/-- Everything `ReadSubBlock` can do (R152): the input ends in the block, or the block is taken whole. -/
theorem readSubBlock_cases (s : State) :
    ((s.input = [] ∨ ∃ n data, s.input = n :: data ∧ data.length < n.toNat)
        ∧ readSubBlock s = (.eof, tookBytes s.input.length [] s))
      ∨ ∃ n data rest, data.length = n.toNat ∧ s.input = n :: (data ++ rest)
          ∧ readSubBlock s = (.block n data, tookBytes (data.length + 1) rest s) := by
  rcases takeByte_cases s with ⟨hi, ht⟩ | ⟨n, tail, hi, ht⟩
  · refine .inl ⟨.inl hi, ?_⟩
    have e := tookBytes_zero s
    rw [hi] at e
    rw [readSubBlock, ht]
    simp [hi, e]
  · have hin : (tookBytes 1 tail s).input = tail := rfl
    rcases readPayload_cases n (tookBytes 1 tail s) with ⟨hl, hp⟩ | ⟨data, rest, hd, hdr, hp⟩
    · refine .inl ⟨.inr ⟨n, tail, hi, by rwa [hin] at hl⟩, ?_⟩
      rw [readSubBlock, ht]
      simp only [hp, tookBytes_tookBytes, hin, hi, List.length_cons, Nat.add_comm 1]
    · rw [hin] at hdr
      refine .inr ⟨n, data, rest, hd, by rw [hi, hdr], ?_⟩
      rw [readSubBlock, ht]
      simp only [hp, tookBytes_tookBytes, Nat.add_comm 1]

/-- A sub-block taken whole leaves less input. -/
theorem readSubBlock_shorter {s t : State} {n : Byte} {data : List Byte} (h : readSubBlock s = (.block n data, t)) :
    t.input.length < s.input.length := by
  rcases readSubBlock_cases s with ⟨_, he⟩ | ⟨n', data', rest, _, hi, he⟩
  · rw [he] at h; simp at h
  · rw [he] at h
    obtain ⟨_, rfl⟩ := Prod.mk.inj h
    rw [hi]
    simp [tookBytes]

/-! ### NextCode -/

/-- More turns than the input has bytes change nothing. -/
theorem nextCodeLoop_enough (w a b : Nat) (s : State) (ha : s.input.length < a) (hb : s.input.length < b) :
    nextCodeLoop w a s = nextCodeLoop w b s := by
  induction a generalizing b s with
  | zero => omega
  | succ a ih =>
    obtain ⟨b, rfl⟩ : ∃ c, b = c + 1 := ⟨b - 1, by omega⟩
    rw [nextCodeLoop, nextCodeLoop]
    split_ifs with h1 h2
    · rfl
    · rfl
    · cases hr : readSubBlock s with
      | mk r t =>
        cases r with
        | eof => rfl
        | block n data =>
          have hl := readSubBlock_shorter hr
          exact ih b _ (by simp; omega) (by simp; omega)

/-- `NextCode(w)` as R153 writes its loop. -/
theorem nextCode_eq (w : Nat) (s : State) :
    nextCode w s =
      if w ≤ s.rd.nbits.toNat then ((.code (takeCode w s.rd).1), { s with rd := (takeCode w s.rd).2 })
      else if s.rd.exhausted then (.endOfStream, s)
      else
        match readSubBlock s with
        | (.eof, s1) => (.corrupt, s1)
        | (.block n data, s1) => nextCode w (refill n data s1) := by
  rw [nextCode, nextCodeLoop]
  split_ifs with h1 h2
  · rfl
  · rfl
  · cases hr : readSubBlock s with
    | mk r t =>
      cases r with
      | eof => rfl
      | block n data =>
        have hl := readSubBlock_shorter hr
        exact nextCodeLoop_enough w _ _ _ (by simpa using hl) (by simp)

/-- Everything `NextCode` can change: it takes bytes from the front of the input, and works on the reader. -/
theorem nextCodeLoop_frame (w turns : Nat) (s : State) :
    ∃ taken rest, s.input = taken ++ rest
      ∧ (nextCodeLoop w turns s).2 = { tookBytes taken.length rest s with rd := (nextCodeLoop w turns s).2.rd } := by
  induction turns generalizing s with
  | zero => exact ⟨[], s.input, rfl, by simp only [nextCodeLoop, List.length_nil, tookBytes_zero]⟩
  | succ turns ih =>
    rw [nextCodeLoop]
    split_ifs with h1 h2
    · exact ⟨[], s.input, rfl, by simp only [List.length_nil, tookBytes_zero]⟩
    · exact ⟨[], s.input, rfl, by simp only [List.length_nil, tookBytes_zero]⟩
    · rcases readSubBlock_cases s with ⟨_, he⟩ | ⟨n, data, rest, _, hi, he⟩
      · exact ⟨s.input, [], by simp, by rw [he]⟩
      · obtain ⟨taken, rest', hin, hfr⟩ := ih (refill n data (tookBytes (data.length + 1) rest s))
        simp only [he]
        refine ⟨n :: (data ++ taken), rest', ?_, ?_⟩
        · have : rest = taken ++ rest' := by simpa [tookBytes] using hin
          rw [hi, this]; simp
        · rw [hfr]
          unfold refill
          split_ifs <;>
            simp [tookBytes, setExhausted, BitVec.ofNat_add, add_comm, add_left_comm]

theorem nextCode_frame (w : Nat) (s : State) :
    ∃ taken rest, s.input = taken ++ rest
      ∧ (nextCode w s).2 = { tookBytes taken.length rest s with rd := (nextCode w s).2.rd } :=
  nextCodeLoop_frame w _ s

/-- Everything `DrainRead` can do (R158). -/
theorem drainRead_cases (s : State) :
    (s.rd.exhausted = true ∧ drainRead s = (.terminated, s))
      ∨ (s.rd.exhausted = false ∧
        (((s.input = [] ∨ ∃ n data, s.input = n :: data ∧ data.length < n.toNat)
            ∧ drainRead s = (.eof, tookBytes s.input.length [] s))
          ∨ ∃ n data rest, data.length = n.toNat ∧ s.input = n :: (data ++ rest)
            ∧ drainRead s =
              if n = 0 then (.terminated, setExhausted (tookBytes (data.length + 1) rest s))
              else (.more, tookBytes (data.length + 1) rest s))) := by
  cases h : s.rd.exhausted with
  | true => exact .inl ⟨rfl, by simp [drainRead, h]⟩
  | false =>
    refine .inr ⟨rfl, ?_⟩
    rcases readSubBlock_cases s with ⟨hc, he⟩ | ⟨n, data, rest, hd, hi, he⟩
    · exact .inl ⟨hc, by simp [drainRead, h, he]⟩
    · exact .inr ⟨n, data, rest, hd, hi, by simp [drainRead, h, he]⟩

end Sys2Proof.Machine
end

