-- ==== Sys2Proof/Laws/Storage.lean ====
section
/-! SUPPORT. The keyed lists: read after write, and the canonical form every operation keeps. -/

namespace Sys2Proof.Machine

variable {α : Type}

@[simp] theorem cellGet_nil (k : Nat) : cellGet k ([] : List (Nat × α)) = none := rfl

/-! ### Read after write -/

@[simp] theorem cellGet_cellSet_same (k : Nat) (v : α) (l : List (Nat × α)) : cellGet k (cellSet k v l) = some v := by
  induction l with
  | nil => simp [cellSet, cellGet]
  | cons c rest ih =>
    obtain ⟨j, u⟩ := c
    unfold cellSet
    split_ifs with h1 h2
    · simp [cellGet]
    · simp [cellGet]
    · simp [cellGet, h2, ih]

theorem cellGet_cellSet_other {k n : Nat} (h : n ≠ k) (v : α) (l : List (Nat × α)) :
    cellGet n (cellSet k v l) = cellGet n l := by
  induction l with
  | nil => simp [cellSet, cellGet, h]
  | cons c rest ih =>
    obtain ⟨j, u⟩ := c
    unfold cellSet
    split_ifs with h1 h2
    · simp [cellGet, h]
    · subst h2; simp [cellGet, h]
    · simp [cellGet, ih]

/-! ### The canonical form -/

/-- Rising lists in one clause: the head lies below every later key. -/
theorem keysRising_cons (c : Nat × α) (rest : List (Nat × α)) :
    keysRising (c :: rest) = true ↔ (∀ d ∈ rest, c.1 < d.1) ∧ keysRising rest = true := by
  induction rest generalizing c with
  | nil => simp [keysRising]
  | cons d rest ih =>
    rw [keysRising, Bool.and_eq_true, decide_eq_true_eq]
    constructor
    · rintro ⟨hlt, hr⟩
      refine ⟨?_, hr⟩
      intro e he
      rcases List.mem_cons.mp he with rfl | he
      · exact hlt
      · exact hlt.trans (((ih d).mp hr).1 e he)
    · rintro ⟨hall, hr⟩
      exact ⟨hall d List.mem_cons_self, hr⟩

theorem mem_cellSet {k : Nat} {v : α} {l : List (Nat × α)} {d : Nat × α} (h : d ∈ cellSet k v l) :
    d = (k, v) ∨ d ∈ l := by
  induction l with
  | nil => simpa [cellSet] using h
  | cons c rest ih =>
    obtain ⟨j, u⟩ := c
    unfold cellSet at h
    split_ifs at h with h1 h2
    · simpa using h
    · rcases List.mem_cons.mp h with h | h
      · exact .inl h
      · exact .inr (List.mem_cons_of_mem _ h)
    · rcases List.mem_cons.mp h with h | h
      · exact .inr (h ▸ List.mem_cons_self)
      · exact (ih h).imp id (List.mem_cons_of_mem _)

/-- Every write of a keyed list keeps its keys strictly rising. -/
theorem keysRising_cellSet (k : Nat) (v : α) (l : List (Nat × α)) (h : keysRising l = true) :
    keysRising (cellSet k v l) = true := by
  induction l with
  | nil => rfl
  | cons c rest ih =>
    obtain ⟨j, u⟩ := c
    rw [keysRising_cons] at h
    unfold cellSet
    split_ifs with h1 h2
    · rw [keysRising_cons, keysRising_cons]
      refine ⟨?_, h⟩
      intro d hd
      rcases List.mem_cons.mp hd with rfl | hd
      · exact h1
      · exact h1.trans (h.1 d hd)
    · subst h2
      rw [keysRising_cons]
      exact h
    · rw [keysRising_cons]
      refine ⟨?_, ih h.2⟩
      intro d hd
      rcases mem_cellSet hd with rfl | hd
      · simp only; omega
      · exact h.1 d hd

/-! ### Frame memory -/

/-- A byte written to memory keeps the canonical form. -/
theorem Memory.wf_cellSet (a : Word) (b : Byte) (m : Memory) (h : Memory.wf m = true) :
    Memory.wf (cellSet a.toNat b m) = true := by
  rw [Memory.wf, Bool.and_eq_true, List.all_eq_true] at h ⊢
  refine ⟨keysRising_cellSet _ _ _ h.1, ?_⟩
  intro d hd
  rcases mem_cellSet hd with rfl | hd
  · simpa using a.isLt
  · exact h.2 d hd

/-- `MemWrite`, the one operation that writes frame memory, keeps its canonical form. -/
theorem Memory.wf_memWrite (addr v : Word) (n : Nat) (m : Memory) (h : Memory.wf m = true) :
    Memory.wf (memWrite addr v n m) = true := by
  induction n with
  | zero => exact h
  | succ n ih => exact Memory.wf_cellSet _ _ _ ih

theorem Memory.wf_reset : Memory.wf State.reset.mem = true := rfl

/-- `MemWrite` leaves every byte outside `[addr, addr + n)` as it was. -/
theorem memRead_memWrite_other (addr v a : Word) (n : Nat) (m : Memory)
    (h : ∀ k, k < n → a ≠ addr + BitVec.ofNat 32 k) : memRead (memWrite addr v n m) a = memRead m a := by
  induction n with
  | zero => rfl
  | succ n ih =>
    have hk : a.toNat ≠ (addr + BitVec.ofNat 32 n).toNat :=
      fun e => h n (Nat.lt_succ_self n) (BitVec.eq_of_toNat_eq e)
    rw [memRead, memWrite, cellGet_cellSet_other hk]
    exact ih fun k hk => h k (hk.trans (Nat.lt_succ_self n))

/-- `MemWrite` writes byte `k` of the value at `addr + k` (R64), for the four bytes of a word at most. -/
theorem memRead_memWrite_same (addr v : Word) (n k : Nat) (m : Memory) (hk : k < n) (hn : n ≤ 4) :
    memRead (memWrite addr v n m) (addr + BitVec.ofNat 32 k) = some (wordByte v k) := by
  induction n with
  | zero => omega
  | succ n ih =>
    rw [memRead, memWrite]
    rcases Nat.lt_succ_iff_lt_or_eq.mp hk with hlt | rfl
    · have hne : (addr + BitVec.ofNat 32 k).toNat ≠ (addr + BitVec.ofNat 32 n).toNat := by
        intro e
        have e2 := add_left_cancel (BitVec.eq_of_toNat_eq e)
        have e3 := congrArg BitVec.toNat e2
        simp only [BitVec.toNat_ofNat] at e3
        omega
      rw [cellGet_cellSet_other hne]
      exact ih hlt (by omega)
    · exact cellGet_cellSet_same _ _ _

/-! ### Palette and table -/

/-- Loading a palette entry shows at its index, and nowhere else. -/
theorem palRead_load (s : State) (i j : Byte) (v : Rgb) :
    palRead { s with pal := cellSet i.toNat v s.pal } j = if j = i then v else palRead s j := by
  unfold palRead
  split_ifs with h
  · subst h; simp
  · have hne : j.toNat ≠ i.toNat := fun e => h (BitVec.eq_of_toNat_eq e)
    simp [cellGet_cellSet_other hne]

theorem keysRising_writeRoots (n : Nat) (t : List (Nat × Slot)) (h : keysRising t = true) :
    keysRising (writeRoots n t) = true := by
  induction n with
  | zero => exact h
  | succ n ih => exact keysRising_cellSet _ _ _ ih

/-- The slots that `ResetTable` writes (R182): the roots, and no other. -/
theorem cellGet_writeRoots (n i : Nat) (t : List (Nat × Slot)) :
    cellGet i (writeRoots n t) = if i < n then some { pre := 0, suf := BitVec.ofNat 8 i } else cellGet i t := by
  induction n with
  | zero => simp [writeRoots]
  | succ n ih =>
    rw [writeRoots]
    by_cases h : i = n
    · subst h; simp
    · rw [cellGet_cellSet_other h, ih]
      have : i < n + 1 ↔ i < n := by omega
      simp [this]

end Sys2Proof.Machine
end

