-- ==== Sys2Proof/Laws/Lzw.lean ====
section
/-! SUPPORT. What the operations of the LZW unit can do: stack, insertion, growth, chain walk, results. -/

namespace Sys2Proof.Machine

/-- The unit's state in an attempt, whether it went on or raised a cause. -/
def Attempt.unit : Attempt → Lzw
  | .ok l => l
  | .raised _ l => l

@[simp] theorem Attempt.unit_ok (l : Lzw) : (Attempt.ok l).unit = l := rfl
@[simp] theorem Attempt.unit_raised (c : Cause) (l : Lzw) : (Attempt.raised c l).unit = l := rfl
@[simp] theorem andThen_ok (l : Lzw) (f : Lzw → Attempt) : andThen (.ok l) f = f l := rfl
@[simp] theorem andThen_raised (c : Cause) (l : Lzw) (f : Lzw → Attempt) : andThen (.raised c l) f = .raised c l := rfl

/-! ### Stack -/

theorem push_room {l : Lzw} (v : Byte) (h : l.stack.length < 4096) : push v l = .ok { l with stack := v :: l.stack } := by
  rw [push, if_neg (show ¬ 4096 ≤ l.stack.length by omega)]

theorem push_full {l : Lzw} (v : Byte) (h : 4096 ≤ l.stack.length) : push v l = .raised .lzwStackOverflow l := by
  rw [push, if_pos h]

/-- Everything a push can do (R194). -/
theorem push_cases (v : Byte) (l : Lzw) :
    (4096 ≤ l.stack.length ∧ push v l = .raised .lzwStackOverflow l)
      ∨ (l.stack.length < 4096 ∧ push v l = .ok { l with stack := v :: l.stack }) := by
  by_cases h : 4096 ≤ l.stack.length
  · exact .inl ⟨h, push_full v h⟩
  · exact .inr ⟨by omega, push_room v (by omega)⟩

@[simp] theorem pop_cons (v : Byte) (rest : List Byte) (l : Lzw) :
    pop { l with stack := v :: rest } = (v, { l with stack := rest }) := rfl

/-! ### Insertion and table reset -/

/-- `Grow` writes `maxCodeSize` and `codeSize` only (R197). -/
theorem grow_frame (l : Lzw) :
    grow l = { l with maxCodeSize := (grow l).maxCodeSize, codeSize := (grow l).codeSize } := by
  unfold grow; split <;> rfl

/-- `Insert` writes the table and the three scalars of its size only (R195, R197). -/
theorem insertEntry_frame (l : Lzw) :
    insertEntry l = { l with
      table := (insertEntry l).table, maxCode := (insertEntry l).maxCode
      maxCodeSize := (insertEntry l).maxCodeSize, codeSize := (insertEntry l).codeSize } := by
  unfold insertEntry grow
  split
  · split <;> rfl
  · rfl

theorem keysRising_insertEntry (l : Lzw) (h : keysRising l.table = true) : keysRising (insertEntry l).table = true := by
  unfold insertEntry grow
  split
  · split <;> exact keysRising_cellSet _ _ _ h
  · exact h

theorem keysRising_resetTable (l : Lzw) (h : keysRising l.table = true) : keysRising (resetTable l).table = true :=
  keysRising_writeRoots _ _ h

/-! ### Chain walk -/

/-- A chain walk pushes symbols and sets `firstCode`, and writes nothing else (R193). -/
theorem walkLoop_frame (resets turns : Nat) (c : Code) (l : Lzw) :
    ∃ syms first, (walkLoop resets turns c l).unit = { l with stack := syms ++ l.stack, firstCode := first } := by
  induction turns generalizing c l with
  | zero => exact ⟨[], l.firstCode, rfl⟩
  | succ turns ih =>
    rw [walkLoop]
    by_cases h1 : l.clearCode.toNat ≤ c.toNat
    · rw [if_pos h1]
      by_cases h2 : l.maxCode.toNat ≤ c.toNat
      · rw [if_pos h2]
        exact ⟨[], l.firstCode, rfl⟩
      · rw [if_neg h2]
        rcases push_cases (readSlot resets l c).suf l with ⟨_, hp⟩ | ⟨_, hp⟩
        · exact ⟨[], l.firstCode, by rw [hp]; rfl⟩
        · rw [hp, andThen_ok]
          by_cases h3 : (readSlot resets l c).pre = c
          · rw [if_pos h3]
            exact ⟨[(readSlot resets l c).suf], l.firstCode, rfl⟩
          · rw [if_neg h3]
            obtain ⟨syms, first, he⟩ :=
              ih (readSlot resets l c).pre { l with stack := (readSlot resets l c).suf :: l.stack }
            exact ⟨syms ++ [(readSlot resets l c).suf], first, by rw [he]; simp⟩
    · rw [if_neg h1]
      rcases push_cases (c.setWidth 8) { l with firstCode := c.setWidth 8 } with ⟨_, hp⟩ | ⟨_, hp⟩
      · exact ⟨[], c.setWidth 8, by rw [hp]; rfl⟩
      · exact ⟨[c.setWidth 8], c.setWidth 8, by rw [hp]; rfl⟩

theorem walk_frame (resets : Nat) (c : Code) (l : Lzw) :
    ∃ syms first, (walk resets c l).unit = { l with stack := syms ++ l.stack, firstCode := first } :=
  walkLoop_frame resets _ c l

/-- One link of a chain walk (R193), while the stack has room. -/
theorem walkLoop_link {resets turns : Nat} {c : Code} {l : Lzw} (hc : l.clearCode.toNat ≤ c.toNat)
    (hm : c.toNat < l.maxCode.toNat) (hp : (readSlot resets l c).pre ≠ c) (hs : l.stack.length < 4096) :
    walkLoop resets (turns + 1) c l =
      walkLoop resets turns (readSlot resets l c).pre { l with stack := (readSlot resets l c).suf :: l.stack } := by
  rw [walkLoop, if_pos hc, if_neg (by omega), push_room _ hs, andThen_ok, if_neg hp]

/-- The end of a chain walk at a root (R193). -/
theorem walkLoop_root {resets turns : Nat} {c : Code} {l : Lzw} (hc : c.toNat < l.clearCode.toNat)
    (hs : l.stack.length < 4096) :
    walkLoop resets (turns + 1) c l =
      .ok { l with firstCode := c.setWidth 8, stack := c.setWidth 8 :: l.stack } := by
  rw [walkLoop, if_neg (by omega)]
  exact push_room (l := { l with firstCode := c.setWidth 8 }) (c.setWidth 8) hs

/-- The end of a chain walk at a code that is not defined (R193). -/
theorem walkLoop_undefined {resets turns : Nat} {c : Code} {l : Lzw} (hc : l.clearCode.toNat ≤ c.toNat)
    (hm : l.maxCode.toNat ≤ c.toNat) : walkLoop resets (turns + 1) c l = .raised .lzwUndefinedCode l := by
  rw [walkLoop, if_pos hc, if_pos hm]

/-- Slots are read from the table alone. -/
theorem readSlot_of_table {resets : Nat} {l l' : Lzw} (h : l'.table = l.table) (c : Code) :
    readSlot resets l' c = readSlot resets l c := by
  rw [readSlot, readSlot, h]

/-! ### Results -/

@[simp] theorem popAttempt_raised (c : Cause) (l : Lzw) (s : State) :
    popAttempt (.raised c l) s = (.corrupt c, { s with lzw := { l with stack := [], result := .corrupt c } }) := rfl

@[simp] theorem popAttempt_ok (l : Lzw) (s : State) :
    popAttempt (.ok l) s = (.index (l.stack.headD 0), { s with lzw := { l with stack := l.stack.tail } }) := rfl

/-- A `NextIndex` result that needs no code, or none (R155, R184, R198, R202). -/
theorem heldIndex_cases (s : State) :
    (s.lzw.result = .endOfData ∧ heldIndex s = some (.endOfData, s))
      ∨ (∃ c, s.lzw.result = .corrupt c ∧ heldIndex s = some (.corrupt c, s))
      ∨ (s.lzw.result = .none ∧ s.lzw.stack = [] ∧ heldIndex s = none)
      ∨ ∃ v rest, s.lzw.result = .none ∧ s.lzw.stack = v :: rest
          ∧ heldIndex s = some (.index v, { s with lzw := { s.lzw with stack := rest } }) := by
  unfold heldIndex
  cases hr : s.lzw.result with
  | endOfData => exact .inl ⟨rfl, rfl⟩
  | corrupt c => exact .inr (.inl ⟨c, rfl, rfl⟩)
  | none =>
    cases hs : s.lzw.stack with
    | nil => exact .inr (.inr (.inl ⟨rfl, rfl, by simp⟩))
    | cons v rest => exact .inr (.inr (.inr ⟨v, rest, rfl, rfl, by simp [pop, hs]⟩))

/-- One turn of `NextIndex`'s loop (R184), with the `NextCode` result it took. -/
theorem nextIndexLoop_cases {turns : Nat} {s t : State} {r : IndexResult}
    (h : nextIndexLoop (turns + 1) s = some (r, t)) :
    ((nextCode s.lzw.codeSize.toNat s).1 = .endOfStream ∧ (r, t) = streamEnded (nextCode s.lzw.codeSize.toNat s).2)
      ∨ ((nextCode s.lzw.codeSize.toNat s).1 = .corrupt
        ∧ (r, t) = raiseCorrupt .inputEof (nextCode s.lzw.codeSize.toNat s).2)
      ∨ ∃ c s1, nextCode s.lzw.codeSize.toNat s = (.code c, s1)
        ∧ ((classify (codeContext s1.lzw) c = .clear ∧ nextIndexLoop turns (clearTable s1) = some (r, t))
          ∨ (classify (codeContext s1.lzw) c = .endOfImage ∧ (r, t) = runEnd s1)
          ∨ (classify (codeContext s1.lzw) c = .first ∧ (r, t) = runFirst c s1)
          ∨ (classify (codeContext s1.lzw) c = .badFirst ∧ (r, t) = runBadFirst c s1)
          ∨ (classify (codeContext s1.lzw) c = .literal ∧ (r, t) = runLiteral c s1)
          ∨ (classify (codeContext s1.lzw) c = .defined ∧ (r, t) = runDefined c s1)
          ∨ (classify (codeContext s1.lzw) c = .kwkwk ∧ (r, t) = runKwkwk c s1)) := by
  rw [nextIndexLoop] at h
  cases hn : nextCode s.lzw.codeSize.toNat s with
  | mk q s1 =>
    rw [hn] at h
    cases q with
    | endOfStream => exact .inl ⟨rfl, (Option.some.inj h).symm⟩
    | corrupt => exact .inr (.inl ⟨rfl, (Option.some.inj h).symm⟩)
    | code c =>
      refine .inr (.inr ⟨c, s1, rfl, ?_⟩)
      cases hk : classify (codeContext s1.lzw) c <;> simp only [hk] at h <;>
        first
          | exact .inl ⟨rfl, h⟩
          | simp [Option.some.inj h]

/-- More turns than a call needs change nothing. -/
theorem nextIndexLoop_more {a : Nat} {s : State} {q : IndexResult × State} (h : nextIndexLoop a s = some q) :
    nextIndexLoop (a + 1) s = some q := by
  induction a generalizing s with
  | zero => simp [nextIndexLoop] at h
  | succ a ih =>
    rw [nextIndexLoop] at h ⊢
    cases hn : nextCode s.lzw.codeSize.toNat s with
    | mk r s1 =>
      rw [hn] at h
      cases r with
      | endOfStream => exact h
      | corrupt => exact h
      | code c =>
        cases hk : classify (codeContext s1.lzw) c <;> simp only [hk] at h ⊢ <;>
          first
            | exact ih h
            | exact h

end Sys2Proof.Machine
end

