-- ==== Sys2Proof/Laws/Engine.lean ====
section
/-! SUPPORT. What a step can do: the ends of a FILL or TAIL step, the engine's move, and the moves of the schedule. -/

namespace Sys2Proof.Machine

/-! ### Ends of a FILL or TAIL step -/

theorem decoding_iff (s : State) : decoding s = true ↔ s.phase = .fill ∨ s.phase = .tail := by
  simp [decoding]

/-- The end of a step that got an index (R234, R244). -/
theorem settle_index (i : Byte) (s : State) (h : decoding s = true) : settle (.index i) s = .next (indexDone i s) := by
  rcases (decoding_iff s).mp h with h | h <;> simp [settle, indexDone, fillResult, tailResult, h]

/-- The end of a step whose data ended (R242, R244). -/
theorem settle_endOfData (s : State) (h : decoding s = true) :
    settle (endOfData s).1 (endOfData s).2 = .next (dataDone s) := by
  rcases (decoding_iff s).mp h with h | h <;>
    simp [settle, dataDone, endOfData, fillResult, tailResult, finish, updateLzwState, snapshot, h]

/-- The end of a step in which a cause other than INPUT_EOF was raised (R202, R243). -/
theorem settle_raised (c : Cause) (s : State) (h : decoding s = true) (hc : c ≠ .inputEof) :
    settle (raiseCorrupt c s).1 (raiseCorrupt c s).2 = .next (corruptDone c s) := by
  rcases (decoding_iff s).mp h with h | h <;>
    simp [settle, corruptDone, raiseCorrupt, fillResult, tailResult, corruptExit, updateLzwState, snapshot, h, hc]

/-- The end of a step in which the input ended (R243). -/
theorem settle_eof (s : State) (h : decoding s = true) :
    settle (raiseCorrupt .inputEof s).1 (raiseCorrupt .inputEof s).2 = .next (eofDone s) := by
  rcases (decoding_iff s).mp h with h | h <;>
    simp [settle, eofDone, raiseCorrupt, fillResult, tailResult, corruptExit, finish, updateLzwState, snapshot, h]

/-- A FILL or TAIL step's end is a next state, whatever its result. -/
theorem settle_next (r : IndexResult) (s : State) (h : decoding s = true) : ∃ t, settle r s = .next t := by
  rcases (decoding_iff s).mp h with h | h <;> exact ⟨_, by rw [settle, h]⟩

/-! ### The fetch -/

theorem fetch_idle {s : State} (h : s.phase = .idle) : fetch s = .noStep := by rw [fetch, h]
theorem fetch_root {s : State} (h : s.phase = .root) : fetch s = fetchRoot s := by rw [fetch, h]
theorem fetch_drain {s : State} (h : s.phase = .drain) : fetch s = fetchDrain s := by rw [fetch, h]

theorem fetch_decoding {s : State} (h : decoding s = true) : fetch s = fetchIndex s := by
  rcases (decoding_iff s).mp h with h | h <;> rw [fetch, h]

/-- While IDLE the engine has no step (R230). -/
theorem engineStep_idle {s : State} (h : s.phase = .idle) : engineStep s = .next s := by
  rw [engineStep, fetch_idle h]

/-! ### The engine's move -/

/-- Everything the engine's move can do: its step, or the wait for a byte (R62, R312). -/
theorem engineMove_cases {s t : State} (h : engineMove s = .next t) :
    engineStep s = .next t ∨ (t = s ∧ s.inEof = false ∧ ∃ u, engineStep s = .next u ∧ ranOutOfInput s u = true) := by
  rw [engineMove] at h
  cases he : engineStep s with
  | next u =>
    simp only [he] at h
    split_ifs at h with hw
    · refine .inr ⟨(Host.Outcome.next.inj h).symm, ?_, u, rfl, ?_⟩ <;> simp_all
    · exact .inl h
  | fault f => simp [he] at h
  | refused r => simp [he] at h

theorem engineMove_idle {s : State} (h : s.phase = .idle) : engineMove s = .next s := by
  rw [engineMove, engineStep_idle h]
  simp

/-! ### The moves of the schedule -/

/-- Everything a step can do, by the move that stands next (R7). -/
theorem step_cases {s t : State} (h : step s = .next t) :
    (s.agenda = [] ∧ engineMove s = .next t)
      ∨ ∃ m rest, s.agenda = m :: rest
        ∧ ((∃ w, m = .op w ∧ exec (decode (codeContext s.lzw) (.host w)) { s with agenda := rest } = .next t)
          ∨ (∃ bytes, m = .feed bytes ∧ t = feedInput bytes { s with agenda := rest })
          ∨ (m = .endInput ∧ t = endInput { s with agenda := rest })
          ∨ (m = .engine ∧ engineMove { s with agenda := rest } = .next t)
          ∨ (m = .waitDone ∧ s.regs.done = true ∧ t = { s with agenda := rest })
          ∨ (m = .waitDone ∧ s.regs.done = false ∧ engineMove s = .next t)
          ∨ (∃ a, m = .readFrame a ∧ t = readFrame a { s with agenda := rest })
          ∨ (m = .reset ∧ t = resetBlock { s with agenda := rest })
          ∨ (∃ n, m = .withdraw n ∧ t = withdrawInput n { s with agenda := rest })) := by
  rw [step, nextEvent] at h
  cases ha : s.agenda with
  | nil => rw [ha] at h; exact .inl ⟨rfl, h⟩
  | cons m rest =>
    rw [ha] at h
    refine .inr ⟨m, rest, rfl, ?_⟩
    cases m with
    | op w => exact .inl ⟨w, rfl, h⟩
    | feed bytes => exact .inr (.inl ⟨bytes, rfl, (Host.Outcome.next.inj h).symm⟩)
    | endInput => exact .inr (.inr (.inl ⟨rfl, (Host.Outcome.next.inj h).symm⟩))
    | engine => exact .inr (.inr (.inr (.inl ⟨rfl, h⟩)))
    | waitDone =>
      simp only [runMove] at h
      split_ifs at h with hd
      · exact .inr (.inr (.inr (.inr (.inl ⟨rfl, hd, (Host.Outcome.next.inj h).symm⟩))))
      · exact .inr (.inr (.inr (.inr (.inr (.inl ⟨rfl, by simpa using hd, h⟩)))))
    | readFrame a =>
      exact .inr (.inr (.inr (.inr (.inr (.inr (.inl ⟨a, rfl, (Host.Outcome.next.inj h).symm⟩))))))
    | reset =>
      exact .inr (.inr (.inr (.inr (.inr (.inr (.inr (.inl ⟨rfl, (Host.Outcome.next.inj h).symm⟩)))))))
    | withdraw n =>
      exact .inr (.inr (.inr (.inr (.inr (.inr (.inr (.inr ⟨n, rfl, (Host.Outcome.next.inj h).symm⟩)))))))

end Sys2Proof.Machine
end

