-- ==== Sys2Proof/Laws/PerInstr.lean ====
section
/-! SUPPORT. One statement per instruction: the encoder's token has the bits that the instruction's row of
spec/opcode_table.json fixes. -/

namespace Sys2Proof.Laws.MatchesRow

/-- The format column of the opcode table (R96). -/
inductive Format where
  | code
  | subblock
  | root
  | hostop
  deriving DecidableEq, Repr

/-- The format, match and mask columns of a row. -/
structure Row where
  format : Format
  value : Nat
  mask : Nat
  deriving DecidableEq, Repr

/-- The row of spec/opcode_table.json that each constructor stands for. -/
def row : Instr → Row
  | .clear => ⟨.code, 0x000, 0x000⟩
  | .endCode => ⟨.code, 0x000, 0x000⟩
  | .first _ => ⟨.code, 0x000, 0x000⟩
  | .badFirst _ => ⟨.code, 0x000, 0x000⟩
  | .literal _ => ⟨.code, 0x000, 0x000⟩
  | .defined _ => ⟨.code, 0x000, 0x000⟩
  | .kwkwk _ => ⟨.code, 0x000, 0x000⟩
  | .subTerminator => ⟨.subblock, 0x00, 0xFF⟩
  | .subData _ => ⟨.subblock, 0x00, 0x00⟩
  | .rootValid _ => ⟨.root, 0x00, 0x00⟩
  | .rootInvalid _ => ⟨.root, 0x00, 0x00⟩
  | .rdId _ _ => ⟨.hostop, 0x00000000000, 0x1FC00000000⟩
  | .rdCtrl _ _ => ⟨.hostop, 0x00400000000, 0x1FC00000000⟩
  | .rdStatus _ _ => ⟨.hostop, 0x00800000000, 0x1FC00000000⟩
  | .rdIrqEn _ _ => ⟨.hostop, 0x00C00000000, 0x1FC00000000⟩
  | .rdFrameW _ _ => ⟨.hostop, 0x01000000000, 0x1FC00000000⟩
  | .rdFrameH _ _ => ⟨.hostop, 0x01400000000, 0x1FC00000000⟩
  | .rdFrameCfg _ _ => ⟨.hostop, 0x01800000000, 0x1FC00000000⟩
  | .rdFbBase _ _ => ⟨.hostop, 0x01C00000000, 0x1FC00000000⟩
  | .rdPalIndex _ _ => ⟨.hostop, 0x02000000000, 0x1FC00000000⟩
  | .rdPalData _ _ => ⟨.hostop, 0x02400000000, 0x1FC00000000⟩
  | .rdPixCount _ _ => ⟨.hostop, 0x02800000000, 0x1FC00000000⟩
  | .rdLzwState _ _ => ⟨.hostop, 0x02C00000000, 0x1FC00000000⟩
  | .rdBytesIn _ _ => ⟨.hostop, 0x03000000000, 0x1FC00000000⟩
  | .rdReserved34 _ _ => ⟨.hostop, 0x03400000000, 0x1FC00000000⟩
  | .rdReserved38 _ _ _ => ⟨.hostop, 0x03800000000, 0x1F800000000⟩
  | .rdReserved40 _ _ _ => ⟨.hostop, 0x04000000000, 0x1C000000000⟩
  | .rdReserved80 _ _ _ => ⟨.hostop, 0x08000000000, 0x18000000000⟩
  | .wrId _ _ => ⟨.hostop, 0x10000000000, 0x1FC00000000⟩
  | .wrCtrlNone _ _ => ⟨.hostop, 0x10400000000, 0x1FC00000003⟩
  | .wrCtrlAbort _ _ => ⟨.hostop, 0x10400000002, 0x1FC00000002⟩
  | .wrCtrlStart _ _ => ⟨.hostop, 0x10400000001, 0x1FC00000001⟩
  | .wrStatus _ _ => ⟨.hostop, 0x10800000000, 0x1FC00000000⟩
  | .wrIrqEn _ _ => ⟨.hostop, 0x10C00000000, 0x1FC00000000⟩
  | .wrFrameW _ _ => ⟨.hostop, 0x11000000000, 0x1FC00000000⟩
  | .wrFrameH _ _ => ⟨.hostop, 0x11400000000, 0x1FC00000000⟩
  | .wrFrameCfg _ _ => ⟨.hostop, 0x11800000000, 0x1FC00000000⟩
  | .wrFbBase _ _ => ⟨.hostop, 0x11C00000000, 0x1FC00000000⟩
  | .wrPalIndex _ _ => ⟨.hostop, 0x12000000000, 0x1FC00000000⟩
  | .wrPalData _ _ => ⟨.hostop, 0x12400000000, 0x1FC00000000⟩
  | .wrPixCount _ _ => ⟨.hostop, 0x12800000000, 0x1FC00000000⟩
  | .wrLzwState _ _ => ⟨.hostop, 0x12C00000000, 0x1FC00000000⟩
  | .wrBytesIn _ _ => ⟨.hostop, 0x13000000000, 0x1FC00000000⟩
  | .wrReserved34 _ _ => ⟨.hostop, 0x13400000000, 0x1FC00000000⟩
  | .wrReserved38 _ _ _ => ⟨.hostop, 0x13800000000, 0x1F800000000⟩
  | .wrReserved40 _ _ _ => ⟨.hostop, 0x14000000000, 0x1C000000000⟩
  | .wrReserved80 _ _ _ => ⟨.hostop, 0x18000000000, 0x18000000000⟩

/-- A token's format. -/
def formatOf : Token → Format
  | .code _ => .code
  | .sub _ => .subblock
  | .root _ => .root
  | .host _ => .hostop

/-- A token's bits, numbered from its least significant. -/
def bitsOf : Token → Nat
  | .code c => c.toNat
  | .sub n => n.toNat
  | .root r => r.toNat
  | .host w => w.toNat

/-- In every decoder state in which the instruction is well formed, its token has its row's format, and its bits under the
row's mask are the row's match. -/
def Statement (i : Instr) : Prop :=
  ∀ k : CodeContext, i.wf k = true →
    formatOf (encode k i) = (row i).format ∧ bitsOf (encode k i) &&& (row i).mask = (row i).value

/-- The part of a host word under a mask given part by part. -/
theorem hostWord_and (w mw : BitVec 1) (x mx : BitVec 6) (lo mlo : BitVec 2) (d md : Word) :
    (hostWord w x lo d).toNat &&& (hostWord mw mx mlo md).toNat
      = (hostWord (w &&& mw) (x &&& mx) (lo &&& mlo) (d &&& md)).toNat := by
  rw [← BitVec.toNat_and]
  show ((w ++ x ++ lo ++ d) &&& (mw ++ mx ++ mlo ++ md)).toNat
    = ((w &&& mw) ++ (x &&& mx) ++ (lo &&& mlo) ++ (d &&& md)).toNat
  rw [BitVec.and_append, BitVec.and_append, BitVec.and_append]

theorem bit_and_one : ∀ w : BitVec 1, w &&& 1 = w := by decide

theorem two_bits_and_zero : ∀ lo : BitVec 2, lo &&& 0 = 0 := by decide

/-- A row that fixes `W` and bits of `OFF[7:2]` and of the data. -/
theorem host_fits (w : BitVec 1) (x mx : BitVec 6) (lo : BitVec 2) (d md v : Word) (mask value : Nat)
    (hm : (hostWord 1 mx 0 md).toNat = mask) (hd : d &&& md = v)
    (hv : (hostWord w (x &&& mx) 0 v).toNat = value) : (hostWord w x lo d).toNat &&& mask = value := by
  rw [← hm, hostWord_and, ← hv, hd, two_bits_and_zero, bit_and_one]

/-- Data under a mask of its bits 1:0. -/
theorem data_fits (d : Word) (m v : BitVec 2) (h0 : (d.getLsbD 0 && m.getLsbD 0) = v.getLsbD 0)
    (h1 : (d.getLsbD 1 && m.getLsbD 1) = v.getLsbD 1) : d &&& m.setWidth 32 = v.setWidth 32 := by
  apply BitVec.eq_of_getLsbD_eq
  intro i hi
  rw [BitVec.getLsbD_and, BitVec.getLsbD_setWidth, BitVec.getLsbD_setWidth]
  rcases i with _ | _ | i
  · simpa using h0
  · simpa using h1
  · simp

theorem clear : Statement (.clear) := by
  intro k _; exact ⟨rfl, Nat.and_zero _⟩

theorem endCode : Statement (.endCode) := by
  intro k _; exact ⟨rfl, Nat.and_zero _⟩

theorem first (c : Code) : Statement (.first c) := by
  intro k _; exact ⟨rfl, Nat.and_zero _⟩

theorem badFirst (c : Code) : Statement (.badFirst c) := by
  intro k _; exact ⟨rfl, Nat.and_zero _⟩

theorem literal (c : Code) : Statement (.literal c) := by
  intro k _; exact ⟨rfl, Nat.and_zero _⟩

theorem defined (c : Code) : Statement (.defined c) := by
  intro k _; exact ⟨rfl, Nat.and_zero _⟩

theorem kwkwk (c : Code) : Statement (.kwkwk c) := by
  intro k _; exact ⟨rfl, Nat.and_zero _⟩

theorem subTerminator : Statement (.subTerminator) := by
  intro k _; exact ⟨rfl, Nat.zero_and _⟩

theorem subData (n : Byte) : Statement (.subData n) := by
  intro k _; exact ⟨rfl, Nat.and_zero _⟩

theorem rootValid (r : Byte) : Statement (.rootValid r) := by
  intro k _; exact ⟨rfl, Nat.and_zero _⟩

theorem rootInvalid (r : Byte) : Statement (.rootInvalid r) := by
  intro k _; exact ⟨rfl, Nat.and_zero _⟩

theorem rdId (lo : BitVec 2) (data : Word) : Statement (.rdId lo data) := by
  intro k _
  exact ⟨rfl, host_fits 0 0 0x3F lo data 0 0 _ _ rfl BitVec.and_zero rfl⟩

theorem rdCtrl (lo : BitVec 2) (data : Word) : Statement (.rdCtrl lo data) := by
  intro k _
  exact ⟨rfl, host_fits 0 1 0x3F lo data 0 0 _ _ rfl BitVec.and_zero rfl⟩

theorem rdStatus (lo : BitVec 2) (data : Word) : Statement (.rdStatus lo data) := by
  intro k _
  exact ⟨rfl, host_fits 0 2 0x3F lo data 0 0 _ _ rfl BitVec.and_zero rfl⟩

theorem rdIrqEn (lo : BitVec 2) (data : Word) : Statement (.rdIrqEn lo data) := by
  intro k _
  exact ⟨rfl, host_fits 0 3 0x3F lo data 0 0 _ _ rfl BitVec.and_zero rfl⟩

theorem rdFrameW (lo : BitVec 2) (data : Word) : Statement (.rdFrameW lo data) := by
  intro k _
  exact ⟨rfl, host_fits 0 4 0x3F lo data 0 0 _ _ rfl BitVec.and_zero rfl⟩

theorem rdFrameH (lo : BitVec 2) (data : Word) : Statement (.rdFrameH lo data) := by
  intro k _
  exact ⟨rfl, host_fits 0 5 0x3F lo data 0 0 _ _ rfl BitVec.and_zero rfl⟩

theorem rdFrameCfg (lo : BitVec 2) (data : Word) : Statement (.rdFrameCfg lo data) := by
  intro k _
  exact ⟨rfl, host_fits 0 6 0x3F lo data 0 0 _ _ rfl BitVec.and_zero rfl⟩

theorem rdFbBase (lo : BitVec 2) (data : Word) : Statement (.rdFbBase lo data) := by
  intro k _
  exact ⟨rfl, host_fits 0 7 0x3F lo data 0 0 _ _ rfl BitVec.and_zero rfl⟩

theorem rdPalIndex (lo : BitVec 2) (data : Word) : Statement (.rdPalIndex lo data) := by
  intro k _
  exact ⟨rfl, host_fits 0 8 0x3F lo data 0 0 _ _ rfl BitVec.and_zero rfl⟩

theorem rdPalData (lo : BitVec 2) (data : Word) : Statement (.rdPalData lo data) := by
  intro k _
  exact ⟨rfl, host_fits 0 9 0x3F lo data 0 0 _ _ rfl BitVec.and_zero rfl⟩

theorem rdPixCount (lo : BitVec 2) (data : Word) : Statement (.rdPixCount lo data) := by
  intro k _
  exact ⟨rfl, host_fits 0 10 0x3F lo data 0 0 _ _ rfl BitVec.and_zero rfl⟩

theorem rdLzwState (lo : BitVec 2) (data : Word) : Statement (.rdLzwState lo data) := by
  intro k _
  exact ⟨rfl, host_fits 0 11 0x3F lo data 0 0 _ _ rfl BitVec.and_zero rfl⟩

theorem rdBytesIn (lo : BitVec 2) (data : Word) : Statement (.rdBytesIn lo data) := by
  intro k _
  exact ⟨rfl, host_fits 0 12 0x3F lo data 0 0 _ _ rfl BitVec.and_zero rfl⟩

theorem rdReserved34 (lo : BitVec 2) (data : Word) : Statement (.rdReserved34 lo data) := by
  intro k _
  exact ⟨rfl, host_fits 0 13 0x3F lo data 0 0 _ _ rfl BitVec.and_zero rfl⟩

theorem rdReserved38 (sel : BitVec 1) (lo : BitVec 2) (data : Word) : Statement (.rdReserved38 sel lo data) := by
  intro k _
  have h : ∀ b : BitVec 1, (7#5 ++ b) &&& (0x3E : BitVec 6) = 7#5 ++ 0#1 := by decide
  exact ⟨rfl, host_fits 0 (7#5 ++ sel) 0x3E lo data 0 0 _ _ rfl BitVec.and_zero (by rw [h]; rfl)⟩

theorem rdReserved40 (sel : BitVec 4) (lo : BitVec 2) (data : Word) : Statement (.rdReserved40 sel lo data) := by
  intro k _
  have h : ∀ b : BitVec 4, (1#2 ++ b) &&& (0x30 : BitVec 6) = 1#2 ++ 0#4 := by decide
  exact ⟨rfl, host_fits 0 (1#2 ++ sel) 0x30 lo data 0 0 _ _ rfl BitVec.and_zero (by rw [h]; rfl)⟩

theorem rdReserved80 (sel : BitVec 5) (lo : BitVec 2) (data : Word) : Statement (.rdReserved80 sel lo data) := by
  intro k _
  have h : ∀ b : BitVec 5, (1#1 ++ b) &&& (0x20 : BitVec 6) = 1#1 ++ 0#5 := by decide
  exact ⟨rfl, host_fits 0 (1#1 ++ sel) 0x20 lo data 0 0 _ _ rfl BitVec.and_zero (by rw [h]; rfl)⟩

theorem wrId (lo : BitVec 2) (data : Word) : Statement (.wrId lo data) := by
  intro k _
  exact ⟨rfl, host_fits 1 0 0x3F lo data 0 0 _ _ rfl BitVec.and_zero rfl⟩

theorem wrCtrlNone (lo : BitVec 2) (data : Word) : Statement (.wrCtrlNone lo data) := by
  intro k h
  simp only [Instr.wf, Bool.and_eq_true, Bool.not_eq_true'] at h
  exact ⟨rfl, host_fits 1 1 0x3F lo data 3 0 _ _ rfl (data_fits data 3 0 (by rw [h.1]; rfl) (by rw [h.2]; rfl)) rfl⟩

theorem wrCtrlAbort (lo : BitVec 2) (data : Word) : Statement (.wrCtrlAbort lo data) := by
  intro k h
  change data.getLsbD 1 = true at h
  exact ⟨rfl, host_fits 1 1 0x3F lo data 2 2 _ _ rfl (data_fits data 2 2 (Bool.and_false _) (by rw [h]; rfl)) rfl⟩

theorem wrCtrlStart (lo : BitVec 2) (data : Word) : Statement (.wrCtrlStart lo data) := by
  intro k h
  simp only [Instr.wf, Bool.and_eq_true] at h
  exact ⟨rfl, host_fits 1 1 0x3F lo data 1 1 _ _ rfl (data_fits data 1 1 (by rw [h.1]; rfl) (Bool.and_false _)) rfl⟩

theorem wrStatus (lo : BitVec 2) (data : Word) : Statement (.wrStatus lo data) := by
  intro k _
  exact ⟨rfl, host_fits 1 2 0x3F lo data 0 0 _ _ rfl BitVec.and_zero rfl⟩

theorem wrIrqEn (lo : BitVec 2) (data : Word) : Statement (.wrIrqEn lo data) := by
  intro k _
  exact ⟨rfl, host_fits 1 3 0x3F lo data 0 0 _ _ rfl BitVec.and_zero rfl⟩

theorem wrFrameW (lo : BitVec 2) (data : Word) : Statement (.wrFrameW lo data) := by
  intro k _
  exact ⟨rfl, host_fits 1 4 0x3F lo data 0 0 _ _ rfl BitVec.and_zero rfl⟩

theorem wrFrameH (lo : BitVec 2) (data : Word) : Statement (.wrFrameH lo data) := by
  intro k _
  exact ⟨rfl, host_fits 1 5 0x3F lo data 0 0 _ _ rfl BitVec.and_zero rfl⟩

theorem wrFrameCfg (lo : BitVec 2) (data : Word) : Statement (.wrFrameCfg lo data) := by
  intro k _
  exact ⟨rfl, host_fits 1 6 0x3F lo data 0 0 _ _ rfl BitVec.and_zero rfl⟩

theorem wrFbBase (lo : BitVec 2) (data : Word) : Statement (.wrFbBase lo data) := by
  intro k _
  exact ⟨rfl, host_fits 1 7 0x3F lo data 0 0 _ _ rfl BitVec.and_zero rfl⟩

theorem wrPalIndex (lo : BitVec 2) (data : Word) : Statement (.wrPalIndex lo data) := by
  intro k _
  exact ⟨rfl, host_fits 1 8 0x3F lo data 0 0 _ _ rfl BitVec.and_zero rfl⟩

theorem wrPalData (lo : BitVec 2) (data : Word) : Statement (.wrPalData lo data) := by
  intro k _
  exact ⟨rfl, host_fits 1 9 0x3F lo data 0 0 _ _ rfl BitVec.and_zero rfl⟩

theorem wrPixCount (lo : BitVec 2) (data : Word) : Statement (.wrPixCount lo data) := by
  intro k _
  exact ⟨rfl, host_fits 1 10 0x3F lo data 0 0 _ _ rfl BitVec.and_zero rfl⟩

theorem wrLzwState (lo : BitVec 2) (data : Word) : Statement (.wrLzwState lo data) := by
  intro k _
  exact ⟨rfl, host_fits 1 11 0x3F lo data 0 0 _ _ rfl BitVec.and_zero rfl⟩

theorem wrBytesIn (lo : BitVec 2) (data : Word) : Statement (.wrBytesIn lo data) := by
  intro k _
  exact ⟨rfl, host_fits 1 12 0x3F lo data 0 0 _ _ rfl BitVec.and_zero rfl⟩

theorem wrReserved34 (lo : BitVec 2) (data : Word) : Statement (.wrReserved34 lo data) := by
  intro k _
  exact ⟨rfl, host_fits 1 13 0x3F lo data 0 0 _ _ rfl BitVec.and_zero rfl⟩

theorem wrReserved38 (sel : BitVec 1) (lo : BitVec 2) (data : Word) : Statement (.wrReserved38 sel lo data) := by
  intro k _
  have h : ∀ b : BitVec 1, (7#5 ++ b) &&& (0x3E : BitVec 6) = 7#5 ++ 0#1 := by decide
  exact ⟨rfl, host_fits 1 (7#5 ++ sel) 0x3E lo data 0 0 _ _ rfl BitVec.and_zero (by rw [h]; rfl)⟩

theorem wrReserved40 (sel : BitVec 4) (lo : BitVec 2) (data : Word) : Statement (.wrReserved40 sel lo data) := by
  intro k _
  have h : ∀ b : BitVec 4, (1#2 ++ b) &&& (0x30 : BitVec 6) = 1#2 ++ 0#4 := by decide
  exact ⟨rfl, host_fits 1 (1#2 ++ sel) 0x30 lo data 0 0 _ _ rfl BitVec.and_zero (by rw [h]; rfl)⟩

theorem wrReserved80 (sel : BitVec 5) (lo : BitVec 2) (data : Word) : Statement (.wrReserved80 sel lo data) := by
  intro k _
  have h : ∀ b : BitVec 5, (1#1 ++ b) &&& (0x20 : BitVec 6) = 1#1 ++ 0#5 := by decide
  exact ⟨rfl, host_fits 1 (1#1 ++ sel) 0x20 lo data 0 0 _ _ rfl BitVec.and_zero (by rw [h]; rfl)⟩

end Sys2Proof.Laws.MatchesRow
end

