-- ==== Sys2Proof/Tests/Slice0.lean ====
section
/-! SUPPORT. Small checks of the model, each with its expected result taken from spec/ (95_test_vectors.md where it has one),
and a witness for the hypotheses of every statement that has some. -/

namespace Sys2Proof.Tests

open Sys2Proof Sys2Proof.Machine

/-! ### Helpers -/

/-- A view of the next state, if there is one. -/
def after {α : Type} (o : Host.Outcome State Fault Refusal) (f : State → α) : Option α :=
  match o with
  | .next t => some (f t)
  | .fault _ => none
  | .refused _ => none

/-- The fault an outcome ends in, if it does. -/
def faultOf (o : Host.Outcome State Fault Refusal) : Option Fault :=
  match o with
  | .next _ => none
  | .fault f => some f
  | .refused _ => none

/-- The palette P0 of 95_test_vectors.md. -/
def p0 : List (Nat × Rgb) := [(0, 0x000000), (1, 0xFF0000), (2, 0x00FF00), (3, 0x0000FF)]

/-- The LZW unit after the codes `CLEAR 0 1` at root 2 (V-CLASSIC): entry 6 is {0, 1}. -/
def lzw01 : Lzw where
  rootSize := 2
  clearCode := 4
  endCode := 5
  codeSize := 3
  maxCode := 7
  maxCodeSize := 8
  oldCode := 1
  firstCode := 1
  fresh := false
  result := .none
  table := [(0, ⟨0, 0⟩), (1, ⟨0, 1⟩), (2, ⟨0, 2⟩), (3, ⟨0, 3⟩), (6, ⟨0, 1⟩)]
  stack := []

/-- The LZW unit after `Init(2)` (S5 of 95_test_vectors.md). -/
def lzwFresh : Lzw :=
  { lzw01 with
    maxCode := 6, oldCode := 0, firstCode := 0, fresh := true
    table := [(0, ⟨0, 0⟩), (1, ⟨0, 1⟩), (2, ⟨0, 2⟩), (3, ⟨0, 3⟩)] }

/-- A frame 7 wide and 1 high in FILL, at its first pixel, with nothing buffered, in LZW state `l`. -/
def fillWith (l : Lzw) : State :=
  { State.reset with
    phase := .fill
    cfg := { State.reset.cfg with width := 7, height := 1, total := 7, bpp := 3 }
    cur := { row := 0, col := 0, pass := 1 }
    lzw := l
    pal := p0 }

/-- The same frame with all pixels written, in TAIL. -/
def tailWith (l : Lzw) : State :=
  { fillWith l with phase := .tail, regs := { State.reset.regs with pixCount := 7 } }

/-- The same frame in DRAIN, with BAD_TERMINATOR pending. -/
def drainState : State :=
  { fillWith lzw01 with phase := .drain, pend := .badTerminator }

/-- The same frame in ROOT. -/
def rootState : State :=
  { fillWith lzw01 with phase := .root }

/-- A decoder state for classification: root 2, one entry in the table. -/
def ctx (maxCode : BitVec 13) (fresh : Bool) : CodeContext :=
  { clearCode := 4, endCode := 5, maxCode := maxCode, fresh := fresh }

/-! ### WellFormed: an ill-formed term for each check -/

theorem test_wf_clear_code_is_a_power : CodeContext.legal { ctx 6 true with clearCode := 6, endCode := 7, maxCode := 8 } = false := by
  decide
theorem test_wf_end_code_follows : CodeContext.legal { ctx 6 true with endCode := 6 } = false := by decide
theorem test_wf_max_code_low : CodeContext.legal (ctx 5 false) = false := by decide
theorem test_wf_max_code_high : CodeContext.legal (ctx 4097 false) = false := by decide
theorem test_wf_fresh_has_no_entry : CodeContext.legal (ctx 7 true) = false := by decide
theorem test_wf_first : (Instr.first 4).wf (ctx 6 true) = false ∧ (Instr.first 1).wf (ctx 7 false) = false := by decide
theorem test_wf_bad_first : (Instr.badFirst 3).wf (ctx 6 true) = false ∧ (Instr.badFirst 7).wf (ctx 7 false) = false := by
  decide
theorem test_wf_literal : (Instr.literal 4).wf (ctx 7 false) = false ∧ (Instr.literal 1).wf (ctx 6 true) = false := by decide
theorem test_wf_defined :
    (Instr.defined 5).wf (ctx 7 false) = false ∧ (Instr.defined 7).wf (ctx 7 false) = false
    ∧ (Instr.defined 6).wf (ctx 6 true) = false := by decide
theorem test_wf_kwkwk : (Instr.kwkwk 6).wf (ctx 7 false) = false ∧ (Instr.kwkwk 6).wf (ctx 6 true) = false := by decide
theorem test_wf_sub_data : (Instr.subData 0).wf (ctx 6 true) = false := by decide
theorem test_wf_root_valid :
    (Instr.rootValid 1).wf (ctx 6 true) = false ∧ (Instr.rootValid 9).wf (ctx 6 true) = false := by decide
theorem test_wf_root_invalid :
    (Instr.rootInvalid 2).wf (ctx 6 true) = false ∧ (Instr.rootInvalid 8).wf (ctx 6 true) = false := by decide
theorem test_wf_ctrl_none :
    (Instr.wrCtrlNone 0 1).wf (ctx 6 true) = false ∧ (Instr.wrCtrlNone 0 2).wf (ctx 6 true) = false := by decide
theorem test_wf_ctrl_abort : (Instr.wrCtrlAbort 0 1).wf (ctx 6 true) = false := by decide
theorem test_wf_ctrl_start :
    (Instr.wrCtrlStart 0 2).wf (ctx 6 true) = false ∧ (Instr.wrCtrlStart 0 3).wf (ctx 6 true) = false := by decide

/-! ### Decode: a word of every constructor, written out from its encoding -/

/-- R85 and S5, at root 2: CLEAR = 4, END = 5; `first` is a code below 4 while fresh. -/
theorem test_decode_codes :
    decodeCode (ctx 6 true) 0x004 = .clear ∧ decodeCode (ctx 9 false) 0x005 = .endCode
    ∧ decodeCode (ctx 6 true) 0x003 = .first 3 ∧ decodeCode (ctx 6 true) 0x006 = .badFirst 6
    ∧ decodeCode (ctx 7 false) 0x003 = .literal 3 ∧ decodeCode (ctx 7 false) 0x006 = .defined 6
    ∧ decodeCode (ctx 7 false) 0x007 = .kwkwk 7 ∧ decodeCode (ctx 4096 false) 0xFFF = .defined 0xFFF := by decide

/-- R81, R82. -/
theorem test_decode_bytes :
    decodeSub 0x00 = .subTerminator ∧ decodeSub 0x01 = .subData 1 ∧ decodeSub 0xFF = .subData 255
    ∧ decodeRoot 0x02 = .rootValid 2 ∧ decodeRoot 0x08 = .rootValid 8
    ∧ decodeRoot 0x01 = .rootInvalid 1 ∧ decodeRoot 0x09 = .rootInvalid 9 := by decide

/-- R88, R111: bit 40 is 0, the offset in bits 39:32. -/
theorem test_decode_reads :
    decodeHost 0x00000000000 = .rdId 0 0 ∧ decodeHost 0x00400000000 = .rdCtrl 0 0
    ∧ decodeHost 0x00800000000 = .rdStatus 0 0 ∧ decodeHost 0x00C00000000 = .rdIrqEn 0 0
    ∧ decodeHost 0x01000000000 = .rdFrameW 0 0 ∧ decodeHost 0x01400000000 = .rdFrameH 0 0
    ∧ decodeHost 0x01800000000 = .rdFrameCfg 0 0 ∧ decodeHost 0x01C00000000 = .rdFbBase 0 0
    ∧ decodeHost 0x02000000000 = .rdPalIndex 0 0 ∧ decodeHost 0x02400000000 = .rdPalData 0 0
    ∧ decodeHost 0x02800000000 = .rdPixCount 0 0 ∧ decodeHost 0x02C00000000 = .rdLzwState 0 0
    ∧ decodeHost 0x03000000000 = .rdBytesIn 0 0 := by decide

/-- R34, R61: the reserved offsets at the ends of their ranges, and bits 1:0 of an offset ignored. -/
theorem test_decode_reserved_reads :
    decodeHost 0x03400000000 = .rdReserved34 0 0
    ∧ decodeHost 0x03800000000 = .rdReserved38 0 0 0 ∧ decodeHost 0x03C00000000 = .rdReserved38 1 0 0
    ∧ decodeHost 0x04000000000 = .rdReserved40 0 0 0 ∧ decodeHost 0x07C00000000 = .rdReserved40 15 0 0
    ∧ decodeHost 0x08000000000 = .rdReserved80 0 0 0 ∧ decodeHost 0x0FC00000000 = .rdReserved80 31 0 0
    ∧ decodeHost 0x00B00000000 = .rdStatus 3 0 := by decide

/-- R88, R112 to R125: bit 40 is 1, the data in bits 31:0. -/
theorem test_decode_writes :
    decodeHost 0x10000000001 = .wrId 0 1 ∧ decodeHost 0x10800010002 = .wrStatus 0 0x00010002
    ∧ decodeHost 0x10C00000001 = .wrIrqEn 0 1 ∧ decodeHost 0x11000000002 = .wrFrameW 0 2
    ∧ decodeHost 0x11400000002 = .wrFrameH 0 2 ∧ decodeHost 0x11800000503 = .wrFrameCfg 0 0x503
    ∧ decodeHost 0x11C00001000 = .wrFbBase 0 0x1000 ∧ decodeHost 0x12000000000 = .wrPalIndex 0 0
    ∧ decodeHost 0x12400FF0000 = .wrPalData 0 0x00FF0000 ∧ decodeHost 0x12800000001 = .wrPixCount 0 1
    ∧ decodeHost 0x12C00000001 = .wrLzwState 0 1 ∧ decodeHost 0x13000000001 = .wrBytesIn 0 1 := by decide

/-- R34, R112: the reserved offsets at the ends of their ranges. -/
theorem test_decode_reserved_writes :
    decodeHost 0x13400000001 = .wrReserved34 0 1
    ∧ decodeHost 0x13800000001 = .wrReserved38 0 0 1 ∧ decodeHost 0x13C00000001 = .wrReserved38 1 0 1
    ∧ decodeHost 0x14000000001 = .wrReserved40 0 0 1 ∧ decodeHost 0x17C00000001 = .wrReserved40 15 0 1
    ∧ decodeHost 0x18000000001 = .wrReserved80 0 0 1 ∧ decodeHost 0x1FFFFFFFFFF = .wrReserved80 31 3 0xFFFFFFFF := by
  decide

/-- R89: ABORT acts first, so it takes the word with both bits. -/
theorem test_decode_ctrl :
    decodeHost 0x10400000000 = .wrCtrlNone 0 0 ∧ decodeHost 0x104FFFFFFFC = .wrCtrlNone 0 0xFFFFFFFC
    ∧ decodeHost 0x10400000001 = .wrCtrlStart 0 1 ∧ decodeHost 0x10400000002 = .wrCtrlAbort 0 2
    ∧ decodeHost 0x10400000003 = .wrCtrlAbort 0 3 := by decide

/-- The decoder refuses, by name, what is no token. -/
theorem test_decode_refuses :
    decodeWord 8 0x100 = .error (.bitsAbove 8 0x100) ∧ decodeWord 12 0x1000 = .error (.bitsAbove 12 0x1000)
    ∧ decodeWord 48 0x20000000000 = .error (.bitsAbove 48 0x20000000000) ∧ decodeWord 32 0 = .error (.noFormat 32) :=
  ⟨rfl, rfl, rfl, rfl⟩

theorem test_decode_table_words :
    decodeTableWord 8 0 = some .subTerminator ∧ decodeTableWord 8 5 = some (.subData 5)
    ∧ decodeTableWord 12 4 = some .clear ∧ decodeTableWord 16 6 = some (.defined 6)
    ∧ decodeTableWord 41 0x10400000001 = some (.wrCtrlStart 0 1)
    ∧ decodeTableWord 48 0x10400000001 = some (.wrCtrlStart 0 1) := by decide

/-! ### A word placed after reset is the next to run -/

/-- `RD_ID` replies `ID` (R21). -/
theorem test_place_host_word : after (step (State.reset.withFetchWord 48 0)) (·.rdata) = some 0x4A494601 := by decide

/-- A literal code in FILL moves `PIX_COUNT` (R190, R234). -/
theorem test_place_code :
    after (step (State.reset.withFetchWord 16 1)) (fun t => (t.regs.pixCount, t.lzw.oldCode, t.lzw.maxCode))
      = some (1, 1, 8) := by decide

/-- A data sub-block of 2 in DRAIN takes three bytes (R158). -/
theorem test_place_sub_block : after (step (State.reset.withFetchWord 8 2)) (·.regs.bytesIn) = some 3 := by decide

/-- What step runs is exec of the word's instruction (R230). -/
theorem test_place_runs_exec :
    step (State.reset.withFetchWord 48 0x10C00000001) = exec (.wrIrqEn 0 1) State.reset := rfl

/-! ### Codes -/

/-- V-KWKWK's first data code, 1: index 1, stored as `00 00 FF` (R188, R64). -/
theorem test_first :
    after (exec (.first 1) (fillWith lzwFresh)) (fun t => (t.mem, t.regs.pixCount, t.lzw.oldCode, t.lzw.firstCode))
      = some ([(0, 0x00), (1, 0x00), (2, 0xFF)], 1, 1, 1) := by decide

/-- FIRST inserts nothing and ends `fresh` (R188). -/
theorem test_first_inserts_nothing :
    after (exec (.first 1) (fillWith lzwFresh)) (fun t => (t.lzw.maxCode, t.lzw.fresh, t.lzw.table))
      = some (6, false, lzwFresh.table) := by decide

/-- V-BADFIRST: LZW_BAD_FIRST_CODE pending, `LZW_STATE` 02020063 but for its root byte. -/
theorem test_bad_first :
    after (exec (.badFirst 6) (fillWith lzwFresh)) (fun t => (t.phase, t.pend, t.lzw.result, lzwStateWord t.regs))
      = some (.drain, .lzwBadFirstCode, .corrupt .lzwBadFirstCode, 0x00020063) := by decide

/-- V-GROWTH's code 2 after 0, 1: entry 7 = {1, 2} fills the codes of 3 bits, so the width grows to 4 (R190, R197). -/
theorem test_literal :
    after (exec (.literal 2) (fillWith lzw01))
        (fun t => (t.mem, cellGet 7 t.lzw.table, t.lzw.maxCode, t.lzw.codeSize, t.lzw.maxCodeSize))
      = some ([(0, 0x00), (1, 0xFF), (2, 0x00)], some ⟨1, 2⟩, 8, 4, 16) := by decide

/-- A literal in TAIL sets EXTRA_DATA and writes nothing (R244). -/
theorem test_literal_in_tail :
    after (exec (.literal 2) (tailWith lzw01)) (fun t => (t.extra, t.mem, t.regs.pixCount)) = some (true, [], 7) := by decide

/-- V-CLASSIC's code 6 = {0, 1}: index 0 now, index 1 next, and entry 7 = {1, 0} (R191, R193). -/
theorem test_defined :
    after (exec (.defined 6) (fillWith lzw01))
        (fun t => (t.mem, t.lzw.stack, t.lzw.firstCode, t.lzw.oldCode, cellGet 7 t.lzw.table))
      = some ([(0, 0x00), (1, 0x00), (2, 0x00)], [1], 0, 6, some ⟨1, 0⟩) := by decide

/-- A slot that has itself as prefix (V-SELF, R193). -/
theorem test_defined_self :
    after (exec (.defined 6) (fillWith { lzw01 with table := [(6, ⟨6, 1⟩)] })) (fun t => (t.phase, t.pend, t.lzw.stack))
      = some (.drain, .lzwSelfPrefix, []) := by decide

/-- V-KWKWK's code 6 after 1: indices 1, 1, entry 6 = {1, 1} (R192). -/
theorem test_kwkwk :
    after (exec (.kwkwk 6) (fillWith { lzwFresh with fresh := false, oldCode := 1, firstCode := 1 }))
        (fun t => (t.mem, t.lzw.stack, cellGet 6 t.lzw.table, t.lzw.oldCode))
      = some ([(0, 0x00), (1, 0x00), (2, 0xFF)], [1], some ⟨1, 1⟩, 6) := by decide

/-- V-UNDEF's second code 7: the walk starts at `oldCode` 7, which is not defined (R192, R193). -/
theorem test_kwkwk_undefined :
    after (exec (.kwkwk 7) (fillWith { lzw01 with oldCode := 7, firstCode := 0 })) (fun t => (t.phase, t.pend))
      = some (.drain, .lzwUndefinedCode) := by decide

/-- V-DCLEAR: after a clear, `4/3 1/3` come from the buffer in the same call (R186). -/
theorem test_clear :
    after (exec .clear { fillWith lzw01 with rd := { acc := 0x0C, nbits := 6, exhausted := false } })
        (fun t => (t.regs.pixCount, t.lzw.maxCode, t.lzw.oldCode, t.rd.nbits))
      = some (1, 6, 1, 0) := by decide +kernel

/-- V-CLASSIC's END: the buffer is discarded and the terminator taken (R187, R242 in FILL). -/
theorem test_end_in_fill :
    after (exec .endCode { fillWith lzw01 with input := [0, 0x3B], rd := { acc := 1, nbits := 2, exhausted := false } })
        (fun t => (t.regs.cause, t.regs.done, t.phase, t.input, t.rd.nbits))
      = some (.shortData, true, .idle, [0x3B], 0) := by decide

/-- V-BADTERM: the sub-block after END is `01 AA` (R187). -/
theorem test_end_bad_terminator :
    after (exec .endCode { tailWith lzw01 with input := [0x01, 0xAA, 0x00] })
        (fun t => (t.phase, t.pend, t.regs.bytesIn, t.input))
      = some (.drain, .badTerminator, 2, [0]) := by decide

/-! ### Stream tokens -/

/-- V-NOEND: the terminator with no END code sets NO_END_CODE (R185). -/
theorem test_terminator_in_tail :
    after (exec .subTerminator (tailWith lzw01)) (fun t => (t.noEnd, t.regs.cause, t.phase, t.rd.exhausted))
      = some (true, .ok, .idle, true) := by decide

/-- DRAIN ends at the terminator with the pending cause (R245). -/
theorem test_terminator_in_drain :
    after (exec .subTerminator drainState) (fun t => (t.regs.cause, t.regs.done, t.phase, irq t))
      = some (.badTerminator, true, .idle, false) := by decide

/-- V-SPLIT's refill `01 8C` with nothing buffered: codes 4, 1 are in it, the least significant bit first (R65, R153). -/
theorem test_sub_data_refills :
    after (exec (.subData 1) { fillWith lzw01 with input := [0x8C, 0x01] })
        (fun t => (t.lzw.oldCode, t.lzw.maxCode, t.rd.nbits, t.rd.acc, t.input))
      = some (1, 6, 2, 2, [0x01]) := by decide +kernel

/-- V-BADTERM-DRAIN: `02 BB CC` is skipped (R245). -/
theorem test_sub_data_in_drain :
    after (exec (.subData 2) { drainState with input := [0xBB, 0xCC, 0x00] })
        (fun t => (t.phase, t.regs.bytesIn, t.input))
      = some (.drain, 2, [0x00]) := by decide

/-- Root 3 (S5): 8, 9, 10, 16, width 4 (R181, R182). -/
theorem test_root_valid :
    after (exec (.rootValid 3) rootState)
        (fun t => (t.phase, t.lzw.clearCode, t.lzw.endCode, t.lzw.maxCodeSize, lzwStateWord t.regs))
      = some (.fill, 8, 9, 16, 0x030200A4) := by decide

/-- V-ZERO: a frame of no pixels goes to TAIL (R233). -/
theorem test_root_valid_empty :
    after (exec (.rootValid 2) { rootState with cfg := State.reset.cfg }) (·.phase) = some .tail := by decide

/-- V-BADROOT: root byte 9, `LZW_STATE` 09000000 (R232). -/
theorem test_root_invalid :
    after (exec (.rootInvalid 9) rootState) (fun t => (t.phase, t.pend, lzwStateWord t.regs))
      = some (.drain, .badRoot, 0x09000000) := by decide

/-- A token in a phase that takes none (log 12). -/
theorem test_out_of_phase :
    faultOf (exec (.rootValid 2) drainState) = some .outOfPhase
    ∧ faultOf (exec (.literal 1) State.reset) = some .outOfPhase
    ∧ faultOf (exec .subTerminator rootState) = some .outOfPhase := by decide

/-- A call that would never return (log 13). -/
theorem test_engine_stalled :
    faultOf (exec .clear (fillWith { State.reset.lzw with rootSize := 15 })) = some .engineStalled := by decide +kernel

/-! ### Register reads -/

theorem test_rd_id : after (exec (.rdId 0 0) drainState) (·.rdata) = some 0x4A494601 := by decide
theorem test_rd_ctrl : after (exec (.rdCtrl 0 0) { drainState with rdata := 7 }) (·.rdata) = some 0 := by decide

/-- V-NOEND's `STATUS` 0000000E (R126). -/
theorem test_rd_status :
    after (exec (.rdStatus 0 0) { State.reset with extra := true, noEnd := true, regs := { State.reset.regs with done := true } })
      (·.rdata) = some 0x0000000E := by decide

/-- P4: busy in ROOT with ERR_BUSY set, `STATUS` 00010011 (R126). -/
theorem test_rd_status_busy :
    after (exec (.rdStatus 0 0) { rootState with regs := { State.reset.regs with errBusy := true } }) (·.rdata)
      = some 0x00010011 := by decide
theorem test_rd_irq_en :
    after (exec (.rdIrqEn 0 0) { State.reset with regs := { State.reset.regs with doneIe := true } }) (·.rdata) = some 1 := by
  decide
theorem test_rd_frame_w :
    after (exec (.rdFrameW 0 0) { State.reset with regs := { State.reset.regs with frameW := 0xFFFF } }) (·.rdata)
      = some 0x0000FFFF := by decide
theorem test_rd_frame_h :
    after (exec (.rdFrameH 0 0) { State.reset with regs := { State.reset.regs with frameH := 8 } }) (·.rdata) = some 8 := by
  decide

/-- V-IL-ARGB's `FRAME_CFG` 0x0503 (R27). -/
theorem test_rd_frame_cfg :
    after (exec (.rdFrameCfg 0 0)
        { State.reset with regs := { State.reset.regs with interlace := true, transpEn := true, transpIdx := 5 } })
      (·.rdata) = some 0x0503 := by decide
theorem test_rd_fb_base :
    after (exec (.rdFbBase 0 0) { State.reset with regs := { State.reset.regs with fbBase := 0xFFFFFFFE } }) (·.rdata)
      = some 0xFFFFFFFE := by decide
theorem test_rd_pal_index :
    after (exec (.rdPalIndex 0 0) { State.reset with regs := { State.reset.regs with palIndex := 0xFF } }) (·.rdata)
      = some 0xFF := by decide

/-- Reading `PAL_DATA` does not move the index (R30, R124). -/
theorem test_rd_pal_data :
    after (exec (.rdPalData 0 0) { State.reset with pal := p0, regs := { State.reset.regs with palIndex := 2 } })
      (fun t => (t.rdata, t.regs.palIndex)) = some (0x0000FF00, 2) := by decide
theorem test_rd_pix_count : after (exec (.rdPixCount 0 0) (tailWith lzw01)) (·.rdata) = some 7 := by decide

/-- `02020063` of 95_test_vectors.md section 0: root byte 2, fresh, 6, 3 (R32). -/
theorem test_rd_lzw_state :
    after (exec (.rdLzwState 0 0)
        { State.reset with
          regs := { State.reset.regs with lzwState := { codeSize := 3, maxCode := 6, fresh := true, rootByte := 2 } } })
      (·.rdata) = some 0x02020063 := by decide
theorem test_rd_bytes_in :
    after (exec (.rdBytesIn 0 0) { State.reset with regs := { State.reset.regs with bytesIn := 6 } }) (·.rdata) = some 6 := by
  decide
theorem test_rd_reserved :
    after (exec (.rdReserved34 0 0) { State.reset with rdata := 7 }) (·.rdata) = some 0
    ∧ after (exec (.rdReserved38 1 0 0) { State.reset with rdata := 7 }) (·.rdata) = some 0
    ∧ after (exec (.rdReserved40 9 0 0) { State.reset with rdata := 7 }) (·.rdata) = some 0
    ∧ after (exec (.rdReserved80 31 3 5) { State.reset with rdata := 7 }) (·.rdata) = some 0 := by decide

/-! ### Register writes -/

/-- START latches the frame: 2 by 8 interlaced with transparency is `bpp` 4, `total` 16 (V-IL-ARGB, R113). -/
theorem test_wr_ctrl_start :
    after (exec (.wrCtrlStart 0 1)
        { State.reset with
          regs := { State.reset.regs with frameW := 2, frameH := 8, interlace := true, transpEn := true, pixCount := 9, done := true } })
      (fun t => (t.phase, t.cfg.total, t.cfg.bpp, t.cur.pass, t.regs.pixCount, t.regs.done))
      = some (.root, 16, 4, 1, 0, false) := by decide

/-- The largest frame: 65535 by 65535 is exactly 0xFFFE0001 (R35). -/
theorem test_wr_ctrl_start_largest :
    after (exec (.wrCtrlStart 0 1)
        { State.reset with regs := { State.reset.regs with frameW := 0xFFFF, frameH := 0xFFFF } })
      (·.cfg.total) = some 0xFFFE0001 := by decide

/-- P4: ABORT ends the frame with ABORTED (R116). -/
theorem test_wr_ctrl_abort :
    after (exec (.wrCtrlAbort 0 2) rootState) (fun t => (t.phase, t.regs.cause, t.regs.done))
      = some (.idle, .aborted, true) := by decide

/-- P4: with both bits a new frame starts, with no ERR_BUSY (R89). -/
theorem test_wr_ctrl_both :
    after (exec (.wrCtrlAbort 0 3) drainState) (fun t => (t.phase, t.regs.cause, t.regs.done, t.regs.errBusy))
      = some (.root, .ok, false, false) := by decide
theorem test_wr_ctrl_none : after (exec (.wrCtrlNone 0 0xFFFFFFFC) drainState) id = some drainState := by decide +kernel

/-- Write 1 to clear: only the bits written as 1 (R117). -/
theorem test_wr_status :
    after (exec (.wrStatus 0 0x00010000) { State.reset with regs := { State.reset.regs with done := true, errBusy := true } })
      (fun t => (t.regs.done, t.regs.errBusy)) = some (true, false) := by decide

/-- Setting `DONE_IE` while `DONE` is 1 raises the interrupt (R118, R274). -/
theorem test_wr_irq_en :
    after (exec (.wrIrqEn 0 0xFFFFFFFF) { State.reset with regs := { State.reset.regs with done := true } }) irq
      = some true := by decide
theorem test_wr_frame_w : after (exec (.wrFrameW 0 0xABCD1234) State.reset) (·.regs.frameW) = some 0x1234 := by decide
theorem test_wr_frame_h : after (exec (.wrFrameH 0 0xABCD1234) State.reset) (·.regs.frameH) = some 0x1234 := by decide
theorem test_wr_frame_cfg :
    after (exec (.wrFrameCfg 0 0xFFFF05FD) State.reset)
      (fun t => (t.regs.interlace, t.regs.transpEn, t.regs.transpIdx)) = some (true, false, 5) := by decide
theorem test_wr_fb_base : after (exec (.wrFbBase 0 0x1001) State.reset) (·.regs.fbBase) = some 0x1001 := by decide
theorem test_wr_pal_index : after (exec (.wrPalIndex 0 0x1FF) State.reset) (·.regs.palIndex) = some 0xFF := by decide

/-- `PAL_INDEX` wraps after entry 255 (R123). -/
theorem test_wr_pal_data :
    after (exec (.wrPalData 0 0xAAFF0000) { State.reset with regs := { State.reset.regs with palIndex := 0xFF } })
      (fun t => (palRead t 0xFF, t.regs.palIndex, t.pal)) = some (0xFF0000, 0, [(255, 0xFF0000)]) := by decide

/-- While BUSY the write is refused (R123, R306). -/
theorem test_wr_pal_data_busy :
    after (exec (.wrPalData 0 0x123456) rootState) (fun t => (t.regs.errBusy, t.pal, t.regs.palIndex))
      = some (true, p0, 0) := by decide
theorem test_wr_ignored :
    after (exec (.wrId 0 5) drainState) id = some drainState ∧ after (exec (.wrPixCount 0 5) drainState) id = some drainState
    ∧ after (exec (.wrLzwState 0 5) drainState) id = some drainState
    ∧ after (exec (.wrBytesIn 0 5) drainState) id = some drainState := by decide +kernel
theorem test_wr_reserved :
    after (exec (.wrReserved34 0 5) drainState) id = some drainState
    ∧ after (exec (.wrReserved38 1 0 5) drainState) id = some drainState
    ∧ after (exec (.wrReserved40 3 0 5) drainState) id = some drainState
    ∧ after (exec (.wrReserved80 9 0 5) drainState) id = some drainState := by decide +kernel

/-! ### Reader and raster -/

/-- R-1: `03 AB CD EF 00`. -/
theorem test_next_code :
    (nextCode 4 { State.reset with input := [0x03, 0xAB, 0xCD, 0xEF, 0x00] }).1 = .code 0xB
    ∧ (nextCode 12 (nextCode 4 { State.reset with input := [0x03, 0xAB, 0xCD, 0xEF, 0x00] }).2).1 = .code 0xCDA := by decide +kernel

/-- R104 and X-3: bytes presented queue behind the leftover `00` of X-2. -/
theorem test_feed_appends :
    after (step { State.reset with agenda := [.feed [0x02, 0x03]], input := [0x00], inEof := true })
      (fun t => (t.input, t.inEof, t.agenda)) = some ([0x00, 0x02, 0x03], false, []) := by decide

/-- X-2, with a host that removes the leftover `00` (log 29). -/
theorem test_withdraw :
    after (step { State.reset with agenda := [.withdraw 1], input := [0x00, 0x02] }) (fun t => (t.input, t.regs.bytesIn))
      = some ([0x02], 0) := by decide

/-- R-3: the input ends inside a sub-block. -/
theorem test_next_code_eof :
    (nextCode 3 { State.reset with input := [0x02, 0xAB] }).1 = .corrupt
    ∧ (nextCode 3 { State.reset with input := [0x02, 0xAB] }).2.regs.bytesIn = 2 := by decide

/-- V-WRAP: the second byte of a pixel at 0xFFFFFFFF is at 0 (R63, R64). -/
theorem test_mem_write_wraps :
    memWrite 0xFFFFFFFF 0x00FF8040 3 [] = [(0, 0x80), (1, 0xFF), (0xFFFFFFFF, 0x40)] := by decide

/-- V-ARGB: the transparent index keeps its colour, with alpha 0 (R239, R91). -/
theorem test_pixel_value :
    pixelValue { State.reset with pal := p0, cfg := { State.reset.cfg with transpEn := true, transpIdx := 1 } } 1 = 0x00FF0000
    ∧ pixelValue { State.reset with pal := p0, cfg := { State.reset.cfg with transpEn := true, transpIdx := 1 } } 2
      = 0xFF00FF00 := by decide

/-- R237, height 5: 0, 4, 2, 1, 3. -/
theorem test_interlace_five : interlacedRows 5 = [0, 4, 2, 1, 3] := by decide

/-! ### Witnesses: states that meet the hypotheses of each statement -/

theorem next_of {o : Host.Outcome State Fault Refusal} (h : (after o id).isSome = true) : ∃ t, o = .next t := by
  cases o with
  | next t => exact ⟨t, rfl⟩
  | fault f => simp [after] at h
  | refused r => simp [after] at h

theorem next_eq {o : Host.Outcome State Fault Refusal} {t : State} (h : after o id = some t) : o = .next t := by
  cases o with
  | next u => exact congrArg _ (Option.some.inj h)
  | fault f => simp [after] at h
  | refused r => simp [after] at h

theorem fault_of {o : Host.Outcome State Fault Refusal} {f : Fault} (h : faultOf o = some f) : o = .fault f := by
  cases o with
  | next t => simp [faultOf] at h
  | fault g => exact congrArg _ (Option.some.inj h)
  | refused r => simp [faultOf] at h

/-- A frame in FILL with the code 2 of three bits buffered. -/
def bufferedState : State :=
  { fillWith lzw01 with rd := { acc := 2, nbits := 3, exhausted := false } }

/-- The same after the code has been taken. -/
def takenState : State :=
  { fillWith lzw01 with rd := { acc := 0, nbits := 0, exhausted := false } }

/-- A schedule of one move before state `s`. -/
def withMove (m : Move) (s : State) : State :=
  { s with agenda := [m] }

/-- A unit whose clear codes have width 0, which no run reaches (log 13). -/
def stalledState : State :=
  fillWith { State.reset.lzw with rootSize := 15 }

theorem witness_StepRunsHostOperation :
    (withMove (.op 0x10400000001) rootState).agenda = .op 0x10400000001 :: [] := rfl

theorem witness_StepRunsFetchedToken :
    (fetch bufferedState = .token (.literal 2) takenState ∧ bufferedState.agenda = []
      ∧ (∃ t, exec (.literal 2) takenState = .next t))
    ∧ (fetch stalledState = .token .clear stalledState ∧ stalledState.agenda = []
      ∧ exec .clear stalledState = .fault .engineStalled)
    ∧ ((withMove .engine bufferedState).agenda = .engine :: bufferedState.agenda
      ∧ { withMove .engine bufferedState with agenda := bufferedState.agenda } = bufferedState) :=
  ⟨⟨by decide +kernel, by decide, next_of (by decide +kernel)⟩,
    ⟨by decide +kernel, by decide, fault_of (by decide +kernel)⟩, ⟨rfl, rfl⟩⟩

/-- The same with a host that waits for `DONE`. -/
theorem witness_StepRunsFetchedToken_waitDone :
    fetch (withMove .waitDone bufferedState) = .token (.literal 2) (withMove .waitDone takenState)
    ∧ (withMove .waitDone bufferedState).regs.done = false ∧ (withMove .waitDone bufferedState).agenda = .waitDone :: []
    ∧ ∃ t, exec (.literal 2) (withMove .waitDone takenState) = .next t :=
  ⟨by decide +kernel, by decide, by decide, next_of (by decide +kernel)⟩

/-- The same with the step that waits: a sub-block whose payload has not come. -/
theorem witness_StepRunsFetchedToken_waiting :
    fetch { fillWith lzw01 with input := [1] }
      = .token (.subData 1) { fillWith lzw01 with regs := { State.reset.regs with bytesIn := 1 } }
    ∧ after (exec (.subData 1) { fillWith lzw01 with regs := { State.reset.regs with bytesIn := 1 } })
        (ranOutOfInput { fillWith lzw01 with input := [1] }) = some true := by decide +kernel

theorem witness_FetchTakesTheNextToken :
    (decoding bufferedState = true ∧ bufferedState.lzw.result = .none ∧ bufferedState.lzw.stack = []
      ∧ bufferedState.lzw.codeSize.toNat ≤ bufferedState.rd.nbits.toNat)
    ∧ (({ rootState with input := [2] } : State).input = 2 :: [] ∧ rootState.phase = .root)
    ∧ (decoding { fillWith lzw01 with input := [0] } = true ∧ (fillWith lzw01).lzw.result = .none
      ∧ (fillWith lzw01).lzw.stack = [] ∧ (fillWith lzw01).rd.nbits.toNat < (fillWith lzw01).lzw.codeSize.toNat
      ∧ (fillWith lzw01).rd.exhausted = false)
    ∧ (drainState.phase = .drain ∧ drainState.rd.exhausted = false) := by decide

/-- The step that begins with a sticky result, with a symbol of the stack, or with the end of the data. -/
theorem witness_FetchTakesTheNextToken_held :
    (decoding (fillWith { lzw01 with result := .endOfData }) = true
      ∧ (fillWith { lzw01 with result := .endOfData }).lzw.result = .endOfData)
    ∧ (decoding (fillWith { lzw01 with result := .corrupt .badTerminator }) = true
      ∧ (fillWith { lzw01 with result := .corrupt .badTerminator }).lzw.result = .corrupt .badTerminator)
    ∧ (decoding (tailWith { lzw01 with stack := [1, 0] }) = true ∧ lzw01.result = .none
      ∧ (tailWith { lzw01 with stack := [1, 0] }).lzw.stack = 1 :: [0])
    ∧ (decoding (setExhausted (fillWith lzw01)) = true ∧ (setExhausted (fillWith lzw01)).lzw.stack = []
      ∧ (setExhausted (fillWith lzw01)).rd.nbits.toNat < (setExhausted (fillWith lzw01)).lzw.codeSize.toNat
      ∧ (setExhausted (fillWith lzw01)).rd.exhausted = true) := by decide

/-- V-CLASSIC after code 6: the symbol 1 on the stack is the next pixel, `00 00 FF` (R198). -/
theorem test_pop :
    after (engineStep (fillWith { lzw01 with stack := [1, 0] })) (fun t => (t.mem, t.lzw.stack, t.regs.pixCount))
      = some ([(0, 0x00), (1, 0x00), (2, 0xFF)], [0], 1) := by decide

/-- The moves on the input, and the wait that is over. -/
theorem witness_StepWaitsForInput_moves :
    (withMove (.feed [1, 2]) { rootState with input := [9], inEof := true }).agenda = .feed [1, 2] :: []
    ∧ (withMove .endInput rootState).agenda = .endInput :: []
    ∧ (withMove (.withdraw 1) { rootState with input := [9] }).agenda = .withdraw 1 :: []
    ∧ (withMove .waitDone { State.reset with regs := { State.reset.regs with done := true } }).agenda = .waitDone :: []
    ∧ (withMove .waitDone { State.reset with regs := { State.reset.regs with done := true } }).regs.done = true := by decide

theorem witness_StepWaitsForInput :
    (∀ s ∈ [rootState, fillWith lzw01, tailWith lzw01, drainState],
      s.agenda = [] ∧ s.input = [] ∧ needsByte s = true ∧ s.inEof = false)
    ∧ ∀ s ∈ [rootState, fillWith lzw01, tailWith lzw01, drainState],
      needsByte { s with inEof := true } = true ∧ ({ s with inEof := true } : State).inEof = true := by decide

theorem witness_ResetEvent : (withMove .reset (tailWith lzw01)).agenda = .reset :: [] := rfl

/-- Inside the footprint while BUSY, at its last byte; outside it while BUSY, one further; and while IDLE. -/
theorem witness_HostReadsOfFrameMemory :
    ((withMove (.readFrame 20) (fillWith lzw01)).agenda = .readFrame 20 :: [] ∧ (fillWith lzw01).phase ≠ .idle
      ∧ inFootprint (fillWith lzw01).cfg 20 = true)
    ∧ ((withMove (.readFrame 21) (fillWith lzw01)).agenda = .readFrame 21 :: []
      ∧ inFootprint (fillWith lzw01).cfg 21 = false)
    ∧ ((withMove (.readFrame 20) State.reset).agenda = .readFrame 20 :: [] ∧ State.reset.phase = .idle) := by
  decide

theorem witness_DecodeOfEncodeIsTheInstruction :
    (ctx 6 true).legal = true ∧ (ctx 4096 false).legal = true
    ∧ Instr.clear.wf (ctx 6 true) = true ∧ (Instr.first 3).wf (ctx 6 true) = true
    ∧ (Instr.badFirst 6).wf (ctx 6 true) = true ∧ (Instr.literal 0).wf (ctx 4096 false) = true
    ∧ (Instr.defined 0xFFF).wf (ctx 4096 false) = true ∧ (Instr.kwkwk 0xFFF).wf (ctx 7 false) = true
    ∧ (Instr.wrCtrlAbort 3 0xFFFFFFFF).wf (ctx 6 true) = true := by decide

theorem witness_CodeClassesPartitionTheCodes :
    (ctx 7 false).legal = true ∧ (Instr.defined 6).wf (ctx 7 false) = true
    ∧ encode (ctx 7 false) (.defined 6) = .code 6 := by decide

theorem witness_ReadsReplyTheAddressedWord :
    (0x00000000000#41).getLsbD 40 = false ∧ (0x0FFFFFFFFFF#41).getLsbD 40 = false := by decide

theorem witness_ReadStatusPacksTheFlags : quietWhileBusy rootState = true ∧ rootState.phase ≠ .idle := by decide

/-- Before any load, and an entry not loaded beside entries that are. -/
theorem witness_ReadPaletteEntry :
    cellGet State.reset.regs.palIndex.toNat State.reset.pal = none
    ∧ cellGet ({ State.reset with pal := p0, regs := { State.reset.regs with palIndex := 4 } } : State).regs.palIndex.toNat p0
      = none := by decide

theorem witness_ControlWritesActInOrder :
    ((0#32).getLsbD 1 = false ∧ (0#32).getLsbD 0 = false) ∧ ((1#32).getLsbD 1 = false ∧ (1#32).getLsbD 0 = true)
    ∧ ((2#32).getLsbD 1 = true ∧ (2#32).getLsbD 0 = false) ∧ ((3#32).getLsbD 1 = true ∧ (3#32).getLsbD 0 = true) := by
  decide

theorem witness_StartLatchesTheFrame : State.reset.phase = .idle := rfl

theorem witness_StartWhileBusyIsRefused : rootState.phase ≠ .idle ∧ (3#32).getLsbD 0 = true := by decide

theorem witness_AbortEndsTheRunningFrame :
    (2#32).getLsbD 0 = false ∧ drainState.phase ≠ .idle ∧ State.reset.phase = .idle := by decide

theorem witness_StatusAndInterruptEnableWrites :
    (2#32).getLsbD 1 = true ∧ ({ State.reset with regs := { State.reset.regs with done := true } } : State).regs.done = true := by
  decide

theorem witness_PaletteWrite :
    State.reset.phase = .idle ∧ (1#8 ≠ State.reset.regs.palIndex) ∧ rootState.phase ≠ .idle := by decide

theorem witness_FirstCodeEmitsItself :
    decoding (fillWith lzwFresh) = true ∧ decoding (tailWith lzwFresh) = true
    ∧ (3#12).toNat < (fillWith lzwFresh).lzw.maxCode.toNat ∧ (fillWith lzwFresh).lzw.maxCode.toNat ≤ (6#12).toNat := by decide

theorem witness_LiteralEmitsAndInserts :
    decoding (fillWith lzw01) = true ∧ (fillWith lzw01).lzw.stack.length < 4096 := by decide

/-- With room, at the threshold of growth, at the last slot, and full. -/
theorem witness_InsertAddsOneEntry :
    lzwFresh.maxCode.toNat < 4096 ∧ (5 ≠ lzwFresh.maxCode.toNat)
    ∧ (lzw01.maxCode.toNat < 4096 ∧ lzw01.maxCode + 1 = lzw01.maxCodeSize ∧ lzw01.maxCodeSize.toNat < 4096)
    ∧ ({ lzw01 with maxCode := 4095, maxCodeSize := 4096 } : Lzw).maxCode.toNat < 4096
    ∧ 4096 ≤ ({ lzw01 with maxCode := 4096, maxCodeSize := 4096 } : Lzw).maxCode.toNat := by decide

/-- The walk of V-CLASSIC's code 6 = {0, 1}. -/
theorem walk_of_six : WalksTo 0 lzw01 6 [1] 0 :=
  .through 6 [] 0 (by decide) (by decide) (by decide) (.here 0)

theorem witness_DefinedCodeEmitsItsString :
    decoding (fillWith lzw01) = true ∧ (fillWith lzw01).lzw.stack = []
    ∧ WalksTo (fillWith lzw01).resets (fillWith lzw01).lzw 6 [1] 0
    ∧ (0#12).toNat < (fillWith lzw01).lzw.clearCode.toNat ∧ [1#8].length < 4096 :=
  ⟨by decide, rfl, walk_of_six, by decide, by decide⟩

/-- The unit of V-CLASSIC before its code 8: the previous code is 6. -/
def lzwAfterSix : Lzw :=
  { lzw01 with oldCode := 6, firstCode := 0 }

theorem witness_RepeatedCodeEmitsThePreviousString :
    decoding (fillWith lzwAfterSix) = true ∧ (fillWith lzwAfterSix).lzw.stack = []
    ∧ WalksTo (fillWith lzwAfterSix).resets (fillWith lzwAfterSix).lzw (fillWith lzwAfterSix).lzw.oldCode [1] 0
    ∧ (0#12).toNat < (fillWith lzwAfterSix).lzw.clearCode.toNat ∧ [1#8].length + 1 < 4096 :=
  ⟨by decide, rfl, .through 6 [] 0 (by decide) (by decide) (by decide) (.here 0), by decide, by decide⟩

/-- A unit whose slot 6 has itself as prefix. -/
def lzwSelf : Lzw :=
  { lzw01 with table := [(6, ⟨6, 1⟩)], oldCode := 6 }

/-- The undefined slot 7 and the slot 6 that is its own prefix, each for a DEFINED and for a KWKWK code. -/
theorem witness_BrokenChainsAreCorrupt :
    (decoding (fillWith lzw01) = true ∧ (fillWith lzw01).lzw.stack = [])
    ∧ ((fillWith lzw01).lzw.clearCode.toNat ≤ (7#12).toNat ∧ ([] : List Byte).length + 1 < 4096
      ∧ WalksTo 0 lzw01 7 [] 7 ∧ lzw01.maxCode.toNat ≤ (7#12).toNat)
    ∧ (WalksTo 0 lzwSelf 6 [] 6 ∧ (6#12).toNat < lzwSelf.maxCode.toNat ∧ (readSlot 0 lzwSelf 6).pre = 6)
    ∧ (WalksTo 0 { lzw01 with oldCode := 7 } ({ lzw01 with oldCode := 7 } : Lzw).oldCode [] 7)
    ∧ WalksTo 0 lzwSelf lzwSelf.oldCode [] 6 :=
  ⟨by decide, ⟨by decide, by decide, .here 7, by decide⟩, ⟨.here 6, by decide, by decide⟩, .here 7, .here 6⟩

theorem witness_ClearThenRootEmitsTheRoot :
    decoding bufferedState = true ∧ lzwInRange bufferedState.lzw = true
    ∧ bufferedState.lzw.rootSize.toNat + 1 ≤ bufferedState.rd.nbits.toNat
    ∧ (2#12).toNat = bufferedState.rd.acc.toNat % 2 ^ (bufferedState.lzw.rootSize.toNat + 1)
    ∧ (2#12).toNat < bufferedState.lzw.clearCode.toNat := by decide +kernel

/-- A code in the buffer, an empty buffer with the terminator read, and a sub-block that follows. -/
theorem witness_ClearReadsOnInTheSameCall :
    (decoding bufferedState = true ∧ engineInv bufferedState = true
      ∧ fetchCode (clearTable bufferedState) = .token (.first 2) (clearTable takenState))
    ∧ (decoding (setExhausted (fillWith lzw01)) = true ∧ engineInv (setExhausted (fillWith lzw01)) = true
      ∧ fetchCode (clearTable (setExhausted (fillWith lzw01)))
        = .result .endOfData (streamEnded (clearTable (setExhausted (fillWith lzw01)))).2)
    ∧ ([0x02#8].length = (1#8).toNat ∧ ({ fillWith lzw01 with input := [0x02, 0x00] } : State).input = [0x02#8] ++ [0x00]
      ∧ (fillWith lzw01).rd.nbits.toNat < (fillWith lzw01).lzw.codeSize.toNat
      ∧ fetchCode { fillWith lzw01 with
          rd := appendData (fillWith lzw01).rd [0x02], input := [0x00]
          regs := { State.reset.regs with bytesIn := 1 } }
        = .token (.literal 2) { fillWith lzw01 with
          rd := { acc := 0, nbits := 5, exhausted := false }, input := [0x00]
          regs := { State.reset.regs with bytesIn := 1 } }) := by decide +kernel

/-- The same for a sub-block that adds fewer bits than a code needs and is the last. -/
theorem witness_ClearReadsOnInTheSameCall_refill_result :
    fetchCode { fillWith { lzw01 with codeSize := 9 } with
        rd := appendData (fillWith lzw01).rd [0x02], input := []
        regs := { State.reset.regs with bytesIn := 1 } }
      = .result (.corrupt .inputEof) (raiseCorrupt .inputEof
        { fillWith { lzw01 with codeSize := 9 } with
          rd := appendData (fillWith lzw01).rd [0x02], input := []
          regs := { State.reset.regs with bytesIn := 1 } }).2 := by decide +kernel

theorem witness_ResetTableStartsOver :
    3 < lzwFresh.clearCode.toNat ∧ lzwFresh.clearCode.toNat ≤ 4 ∧ 2 ≤ (2#8).toNat ∧ (8#8).toNat ≤ 8 := by decide

theorem witness_EndCodeChecksTheTerminator :
    decoding (fillWith lzw01) = true ∧ (setExhausted (fillWith lzw01)).rd.exhausted = true
    ∧ (fillWith lzw01).rd.exhausted = false
    ∧ ({ fillWith lzw01 with input := [0, 5] } : State).input = 0 :: [5]
    ∧ ((1#8 ≠ 0) ∧ [0xAA#8].length = (1#8).toNat
      ∧ ({ fillWith lzw01 with input := [1, 0xAA, 0] } : State).input = 1#8 :: ([0xAA#8] ++ [0]))
    ∧ (fillWith lzw01).input = []
    ∧ (({ fillWith lzw01 with input := [2, 0xAA] } : State).input = 2#8 :: [0xAA#8] ∧ [0xAA#8].length < (2#8).toNat) := by
  decide

theorem witness_SubBlocksInDrainAreSkipped :
    drainState.phase = .drain
    ∧ ([0xBB#8, 0xCC#8].length = (2#8).toNat
      ∧ ({ drainState with input := [0xBB, 0xCC, 0] } : State).input = [0xBB#8, 0xCC#8] ++ [0])
    ∧ ({ drainState with input := [0xBB] } : State).input.length < (2#8).toNat := by decide

theorem witness_RefillsInTheData :
    decoding (fillWith lzw01) = true ∧ (fillWith lzw01).rd.nbits.toNat < (fillWith lzw01).lzw.codeSize.toNat
    ∧ (fillWith lzw01).input.length < (1#8).toNat := by decide

/-- A payload of one byte that is all there, enough for a code. -/
theorem witness_RefillsInTheData_whole :
    engineInv { fillWith lzw01 with input := [0x02, 0x00] } = true ∧ [0x02#8].length = (1#8).toNat
    ∧ ({ fillWith lzw01 with input := [0x02, 0x00] } : State).input = [0x02#8] ++ [0x00]
    ∧ (fillWith lzw01).lzw.codeSize.toNat ≤ (appendData (fillWith lzw01).rd [0x02]).nbits.toNat := by decide +kernel

theorem witness_RootByteStartsDecoding : rootState.phase = .root := rfl

/-- An empty buffer, and the fullest one that takes a byte more. -/
theorem witness_CodesAreTheOldestBits :
    (readerBounded State.reset.rd = true ∧ State.reset.rd.nbits.toNat + 8 ≤ 2051)
    ∧ (readerBounded { acc := 0, nbits := 2043, exhausted := false } = true
      ∧ (2043#12).toNat + 8 ≤ 2051)
    ∧ (readerBounded { acc := 0xABC, nbits := 12, exhausted := false } = true ∧ 12 ≤ (12#12).toNat) := by
  decide +kernel

/-- A code of 12 bits split over two sub-blocks of one byte. -/
theorem witness_SplittingKeepsTheCode :
    readerBounded State.reset.rd = true ∧ State.reset.rd.exhausted = false ∧ State.reset.rd.nbits.toNat < 12
    ∧ 0 < [0xAB#8].length ∧ 0 < [0x0C#8].length ∧ [0xAB#8].length + [0x0C#8].length ≤ 255
    ∧ 12 ≤ State.reset.rd.nbits.toNat + 8 * ([0xAB#8].length + [0x0C#8].length) := by decide +kernel

theorem witness_IndexInFillWritesThePixel :
    ((fillWith lzw01).phase = .fill ∧ (fillWith lzw01).cfg.bpp = (if (fillWith lzw01).cfg.transpEn then 4#3 else 3#3))
    ∧ (∃ c : FrameCfg, c.transpEn = true ∧ c.bpp = (if c.transpEn then 4#3 else 3#3))
    ∧ (tailWith lzw01).phase = .tail :=
  ⟨by decide, ⟨{ State.reset.cfg with transpEn := true, bpp := 4 }, rfl, rfl⟩, rfl⟩

/-- V-IL-ARGB's frame, 2 wide and 8 high, interlaced, with a cursor and the pixels before it; the code 2 is buffered. -/
def interlacedState (row : BitVec 17) (col : BitVec 16) (pass : BitVec 3) (pixels : Word) : State :=
  { bufferedState with
    cfg :=
      { State.reset.cfg with
        width := 2, height := 8, interlace := true, transpEn := true, transpIdx := 5, total := 16, bpp := 4 }
    cur := { row := row, col := col, pass := pass }
    regs := { State.reset.regs with pixCount := pixels } }

/-- The same for interlaced frames: the first pixel, the last of pass 1, the last of pass 3, and the last of all (S2). -/
theorem witness_CursorStaysOnItsPosition_interlaced :
    (∀ s ∈ [interlacedState 0 0 1 0, interlacedState 0 1 1 1, interlacedState 6 1 3 7, interlacedState 7 1 4 15],
      s.phase = .fill ∧ rasterInv s = true ∧ (after (step s) rasterInv) = some true)
    ∧ after (step (interlacedState 6 1 3 7)) (·.cur) = some { row := 1, col := 0, pass := 4 }
    ∧ after (step (interlacedState 7 1 4 15)) (·.phase) = some .tail := by decide +kernel

theorem witness_CursorStaysOnItsPosition :
    rasterInv bufferedState = true ∧ ∃ t, step bufferedState = .next t :=
  ⟨by decide +kernel, next_of (by decide +kernel)⟩

theorem witness_EachPixelHasOnePosition :
    (fillWith lzw01).phase = .fill ∧ (fillWith lzwFresh).phase = .fill ∧ rasterInv (fillWith lzw01) = true
    ∧ rasterInv (fillWith lzwFresh) = true ∧ (fillWith lzw01).cfg = (fillWith lzwFresh).cfg
    ∧ (fillWith lzw01).cur.row = (fillWith lzwFresh).cur.row ∧ (fillWith lzw01).cur.col = (fillWith lzwFresh).cur.col := by
  decide +kernel

/-- The same for two states of one interlaced frame, on a pixel of the last pass. -/
theorem witness_EachPixelHasOnePosition_interlaced :
    (interlacedState 3 1 4 11).phase = .fill ∧ rasterInv (interlacedState 3 1 4 11) = true
    ∧ ({ interlacedState 3 1 4 11 with lzw := lzwFresh } : State).phase = .fill
    ∧ rasterInv { interlacedState 3 1 4 11 with lzw := lzwFresh } = true := by decide +kernel

theorem witness_WritesStayInTheFootprint :
    rasterInv bufferedState = true ∧ (∃ t, step bufferedState = .next t) ∧ inFootprint bufferedState.cfg 21 = false
    ∧ rasterInv State.reset = true ∧ (∃ t, step State.reset = .next t) ∧ State.reset.phase = .idle :=
  ⟨by decide +kernel, next_of (by decide +kernel), by decide +kernel, by decide +kernel, next_of (by decide +kernel), rfl⟩

theorem witness_ResetMeetsTheInvariants : (1#6 ≠ 0#6) ∧ (1#6 ≠ 9#6) := by decide

theorem witness_StatusIsQuietWhileBusy :
    quietWhileBusy bufferedState = true ∧ ∃ t, step bufferedState = .next t :=
  ⟨by decide +kernel, next_of (by decide +kernel)⟩

theorem witness_StorageStaysCanonical :
    storageCanonical bufferedState = true ∧ ∃ t, step bufferedState = .next t :=
  ⟨by decide +kernel, next_of (by decide +kernel)⟩

theorem witness_EngineInvariantKept :
    engineInv bufferedState = true ∧ ∃ t, step bufferedState = .next t :=
  ⟨by decide +kernel, next_of (by decide +kernel)⟩

theorem witness_EveryStepAnswersANextState :
    engineInv bufferedState = true ∧ engineInv drainState = true ∧ engineInv rootState = true := by decide +kernel

theorem witness_SymbolsStayRoots :
    tableInv bufferedState = true ∧ ∃ t, step bufferedState = .next t :=
  ⟨by decide +kernel, next_of (by decide +kernel)⟩

/-- The table of V-CLASSIC has the one chain 6, 0. -/
theorem chains_of_lzw01 : chainsStop 0 lzw01 := by
  refine ⟨?_, fun _ => .inr ⟨[], 1, .here 1, by decide⟩⟩
  intro c h1 h2
  have h3 : c.toNat = 6 := by
    change 6 ≤ c.toNat at h1
    change c.toNat < 7 at h2
    omega
  have h4 : c = 6 := BitVec.eq_of_toNat_eq h3
  subst h4
  exact ⟨[1], 0, walk_of_six, .inl (by decide)⟩

theorem witness_StackNeverOverflows :
    decoding bufferedState = true ∧ tableInv bufferedState = true ∧ chainsStop bufferedState.resets bufferedState.lzw
    ∧ (∃ t, engineStep bufferedState = .next t ∧ decoding t = true) ∧ bufferedState.lzw.stack.length ≤ 4092 := by
  refine ⟨by decide +kernel, by decide +kernel, chains_of_lzw01, ?_, by decide⟩
  obtain ⟨t, ht⟩ := next_of (o := engineStep bufferedState) (by decide +kernel)
  refine ⟨t, ht, ?_⟩
  have hd : after (engineStep bufferedState) decoding = some true := by decide +kernel
  rw [ht] at hd
  exact Option.some.inj hd

theorem witness_EngineStepIsTheRulesStep :
    engineInv (fillWith lzw01) = true ∧ engineInv (tailWith lzw01) = true ∧ engineInv rootState = true
    ∧ engineInv drainState = true ∧ engineInv State.reset = true := by decide +kernel

theorem witness_EngineNeverLooksAhead :
    bufferedState.inEof = false ∧ ∃ t, engineMove bufferedState = .next t ∧ t ≠ bufferedState := by
  refine ⟨rfl, ?_⟩
  obtain ⟨t, ht⟩ := next_of (o := engineMove bufferedState) (by decide +kernel)
  refine ⟨t, ht, ?_⟩
  intro he
  have hd : after (engineMove bufferedState) (·.rd.nbits) = some 0 := by decide +kernel
  rw [ht, he] at hd
  exact absurd (Option.some.inj hd) (by decide)

theorem witness_InputIsTakenInOrder :
    (∃ t, engineMove { fillWith lzw01 with input := [1, 2, 0] } = .next t)
    ∧ (setExhausted bufferedState).rd.exhausted = true ∧ (setExhausted bufferedState).phase ≠ .root
    ∧ ∃ t, engineMove (setExhausted bufferedState) = .next t :=
  ⟨next_of (by decide +kernel), rfl, by decide, next_of (by decide +kernel)⟩

/-- A frame whose last pixel is written, whose END is buffered and whose terminator comes next. -/
def endingState : State :=
  { tailWith lzw01 with input := [0], rd := { acc := 5, nbits := 3, exhausted := false } }

theorem witness_CompletionFollowsTheTerminator :
    engineInv endingState = true ∧ endingState.phase ≠ .idle ∧ rasterInv endingState = true
    ∧ endingState.rd.exhausted = false
    ∧ ∃ t, engineMove endingState = .next t ∧ t.phase = .idle ∧ t.regs.cause ≠ .inputEof ∧ t.regs.cause = .ok := by
  refine ⟨by decide +kernel, by decide, by decide +kernel, rfl, ?_⟩
  obtain ⟨t, ht⟩ := next_of (o := engineMove endingState) (by decide +kernel)
  have hp : after (engineMove endingState) (fun t => (t.phase, t.regs.cause)) = some (.idle, .ok) := by decide +kernel
  rw [ht] at hp
  obtain ⟨h1, h2⟩ := Prod.mk.inj (Option.some.inj hp)
  exact ⟨t, ht, h1, by rw [h2]; decide, h2⟩

theorem witness_EveryEngineStepShrinksTheWork :
    engineInv bufferedState = true ∧ bufferedState.phase ≠ .idle ∧ ∃ t, engineStep bufferedState = .next t :=
  ⟨by decide +kernel, by decide, next_of (by decide +kernel)⟩

/-- A palette write of another colour, and a START of another frame. -/
theorem witness_OnlyTheHostWritesThePalette :
    (∃ t, step (withMove (.op 0x12400FF0000) State.reset) = .next t ∧ t.pal ≠ State.reset.pal)
    ∧ ∃ t, step (withMove (.op 0x10400000001) State.reset) = .next t ∧ t.cfg ≠ State.reset.cfg :=
  ⟨⟨_, rfl, by decide⟩, ⟨_, rfl, by decide⟩⟩

theorem witness_EngineMovesLeaveHostRegisters : ∃ t, engineMove bufferedState = .next t :=
  next_of (by decide +kernel)

/-- The interrupt raised by a completion, raised by enabling it, and lowered by clearing `DONE`. -/
theorem witness_InterruptRisesOnlyByItsCauses :
    (irq { endingState with regs := { endingState.regs with doneIe := true } } = false
      ∧ after (step { endingState with regs := { endingState.regs with doneIe := true } }) irq = some true)
    ∧ (irq (withMove (.op 0x10C00000001) { State.reset with regs := { State.reset.regs with done := true } }) = false
      ∧ after (step (withMove (.op 0x10C00000001) { State.reset with regs := { State.reset.regs with done := true } })) irq
        = some true)
    ∧ irq (withMove (.op 0x10800000002)
        { State.reset with regs := { State.reset.regs with done := true, doneIe := true } }) = true
    ∧ after (step (withMove (.op 0x10800000002)
        { State.reset with regs := { State.reset.regs with done := true, doneIe := true } })) irq = some false := by
  decide +kernel

theorem witness_NothingCarriesOverBetweenFrames :
    rootState.phase = .root ∧ ({ rootState with lzw := lzwFresh } : State).phase = .root
    ∧ (∃ t, exec (.rootValid 2) rootState = .next t)
    ∧ ∃ t, exec (.rootValid 2) { rootState with lzw := lzwFresh } = .next t :=
  ⟨rfl, rfl, ⟨_, rfl⟩, ⟨_, rfl⟩⟩

end Sys2Proof.Tests
end

section
/-! Proofs of the scope statements: what a step does with the move at the head of the schedule. -/

namespace Sys2Proof.Machine

/-- A step with a move scheduled runs that move on the state without it (R7). -/
theorem step_of_agenda_cons {s : State} {m : Move} {rest : List Move} (h : s.agenda = m :: rest) :
    step s = runMove m s { s with agenda := rest } := by
  rw [step, nextEvent, h]

/-- The move of a host word executes what the word decodes to, whatever state waited (R110). -/
theorem runMove_op (w : HostWord) (waiting s : State) :
    runMove (.op w) waiting s = exec (decode (codeContext s.lzw) (.host w)) s := rfl

/-- Settles O1: the step runs the scheduled word, and removing the move leaves the LZW unit, hence the decoder's context,
as it was. -/
theorem stepRunsHostOperation : Obligations.StepRunsHostOperation := by
  intro s w rest h
  rw [step_of_agenda_cons h, runMove_op]

end Sys2Proof.Machine
end

section
/-! The frame of an engine step: the two parts of the state that tell what reading a token or an index, and what a whole
engine step, can change. -/

namespace Sys2Proof.Machine

/-! ### What reading can change -/

/-- `s` with the fields blanked that reading the stream writes: `IN` and its byte counter, the reader, the LZW unit and
`NO_END_CODE`. Two states with the same `blankStream` differ in these only. -/
def blankStream (s : State) : State :=
  { s with
    regs := { s.regs with bytesIn := 0 }
    noEnd := false
    rd := State.reset.rd
    lzw := State.reset.lzw
    input := [] }

@[simp] theorem blankStream_tookBytes (n : Nat) (rest : List Byte) (s : State) :
    blankStream (tookBytes n rest s) = blankStream s := rfl

@[simp] theorem blankStream_rd (s : State) (r : Reader) : blankStream { s with rd := r } = blankStream s := rfl

@[simp] theorem blankStream_lzw (s : State) (l : Lzw) : blankStream { s with lzw := l } = blankStream s := rfl

@[simp] theorem blankStream_discard (s : State) : blankStream (discard s) = blankStream s := rfl

@[simp] theorem blankStream_setExhausted (s : State) : blankStream (setExhausted s) = blankStream s := rfl

@[simp] theorem blankStream_clearTable (s : State) : blankStream (clearTable s) = blankStream s := rfl

@[simp] theorem blankStream_raiseCorrupt (c : Cause) (s : State) :
    blankStream (raiseCorrupt c s).2 = blankStream s := rfl

@[simp] theorem blankStream_endOfData (s : State) : blankStream (endOfData s).2 = blankStream s := rfl

@[simp] theorem blankStream_streamEnded (s : State) : blankStream (streamEnded s).2 = blankStream s := rfl

@[simp] theorem blankStream_takeByte (s : State) : blankStream (takeByte s).2 = blankStream s := by
  rcases takeByte_cases s with ⟨-, h⟩ | ⟨b, rest, -, h⟩ <;> simp [h]

@[simp] theorem blankStream_readPayload (n : Byte) (s : State) : blankStream (readPayload n s).2 = blankStream s := by
  rcases readPayload_cases n s with ⟨-, h⟩ | ⟨data, rest, -, -, h⟩ <;> simp [h]

@[simp] theorem blankStream_readSubBlock (s : State) : blankStream (readSubBlock s).2 = blankStream s := by
  rcases readSubBlock_cases s with ⟨-, h⟩ | ⟨n, data, rest, -, -, h⟩ <;> simp [h]

@[simp] theorem blankStream_nextCode (w : Nat) (s : State) : blankStream (nextCode w s).2 = blankStream s := by
  obtain ⟨taken, rest, -, h⟩ := nextCode_frame w s
  rw [h, blankStream_rd, blankStream_tookBytes]

@[simp] theorem blankStream_popAttempt (a : Attempt) (s : State) :
    blankStream (popAttempt a s).2 = blankStream s := by
  cases a <;> rfl

@[simp] theorem blankStream_runFirst (c : Code) (s : State) : blankStream (runFirst c s).2 = blankStream s := by
  unfold runFirst; split <;> rfl

@[simp] theorem blankStream_runBadFirst (c : Code) (s : State) : blankStream (runBadFirst c s).2 = blankStream s := rfl

@[simp] theorem blankStream_runLiteral (c : Code) (s : State) : blankStream (runLiteral c s).2 = blankStream s :=
  blankStream_popAttempt _ s

@[simp] theorem blankStream_runDefined (c : Code) (s : State) : blankStream (runDefined c s).2 = blankStream s :=
  blankStream_popAttempt _ s

@[simp] theorem blankStream_runKwkwk (c : Code) (s : State) : blankStream (runKwkwk c s).2 = blankStream s :=
  blankStream_popAttempt _ s

@[simp] theorem blankStream_runEnd (s : State) : blankStream (runEnd s).2 = blankStream s := by
  rw [runEnd]
  split_ifs with hx
  · simp
  · have hb := blankStream_readSubBlock (discard s)
    cases hr : readSubBlock (discard s) with
    | mk q u =>
      rw [hr] at hb
      cases q with
      | eof => simpa using hb
      | block n data =>
        dsimp only
        split_ifs <;> simpa using hb

/-- A `NextIndex` call writes the stream's side of the state only (R184). -/
theorem nextIndexLoop_blankStream {turns : Nat} {s t : State} {r : IndexResult}
    (h : nextIndexLoop turns s = some (r, t)) : blankStream t = blankStream s := by
  induction turns generalizing s with
  | zero => simp [nextIndexLoop] at h
  | succ turns ih =>
    have ofEq {q : IndexResult × State} (he : (r, t) = q) : blankStream t = blankStream q.2 := by rw [← he]
    rcases nextIndexLoop_cases h with ⟨-, he⟩ | ⟨-, he⟩ | ⟨c, s1, hn, hk⟩
    · simpa using ofEq he
    · simpa using ofEq he
    · have hs : blankStream s1 = blankStream s := by simpa [hn] using blankStream_nextCode s.lzw.codeSize.toNat s
      rw [← hs]
      rcases hk with ⟨-, he⟩ | ⟨-, he⟩ | ⟨-, he⟩ | ⟨-, he⟩ | ⟨-, he⟩ | ⟨-, he⟩ | ⟨-, he⟩
      · simpa using ih he
      all_goals simpa using ofEq he

theorem heldIndex_blankStream {s t : State} {r : IndexResult} (h : heldIndex s = some (r, t)) :
    blankStream t = blankStream s := by
  rcases heldIndex_cases s with ⟨-, he⟩ | ⟨c, -, he⟩ | ⟨-, -, he⟩ | ⟨v, rest, -, -, he⟩ <;> rw [he] at h <;> cases h
  all_goals rfl

/-! ### What an engine step can change -/

/-- `s` with everything blanked that an engine step may write. What is left is the host's: configuration registers,
`IRQ_EN`, `ERR_BUSY`, `PAL_INDEX`, palette, working copies, replies, schedule, `in_eof` and the counters. -/
def blankEngine (s : State) : State :=
  { blankStream s with
    regs :=
      { s.regs with
        done := false, cause := .ok, pixCount := 0, bytesIn := 0, lzwState := State.reset.regs.lzwState }
    phase := .idle
    pend := .ok
    extra := false
    cur := State.reset.cur
    mem := [] }

/-- What reading can change, an engine step can. -/
theorem blankEngine_eq_of_blankStream {s t : State} (h : blankStream t = blankStream s) :
    blankEngine t = blankEngine s := by
  change blankEngine (blankStream t) = blankEngine (blankStream s)
  rw [h]

/-- The frame of an engine step from `s` to `t`: the host's part stays; the step completes the frame or leaves `DONE` and
`CAUSE` (R272); it counts one pixel, or none and then writes no memory (R241). -/
structure EngineFrame (s t : State) : Prop where
  host : blankEngine t = blankEngine s
  status : t.phase = .idle ∨ (t.regs.done = s.regs.done ∧ t.regs.cause = s.regs.cause)
  pixels : (t.regs.pixCount = s.regs.pixCount ∧ t.mem = s.mem) ∨ t.regs.pixCount = s.regs.pixCount + 1

/-- Reading alone is within the frame. -/
theorem EngineFrame.of_blankStream {s t : State} (h : blankStream t = blankStream s) : EngineFrame s t where
  host := blankEngine_eq_of_blankStream h
  status := .inr ⟨congrArg (·.regs.done) h, congrArg (·.regs.cause) h⟩
  pixels := .inl ⟨congrArg (·.regs.pixCount) h, congrArg (·.mem) h⟩

theorem EngineFrame.refl (s : State) : EngineFrame s s := .of_blankStream rfl

/-- Reading may come before the rest of a step. -/
theorem EngineFrame.after_reading {s s1 t : State} (h : blankStream s1 = blankStream s) (ht : EngineFrame s1 t) :
    EngineFrame s t := by
  have hd : s1.regs.done = s.regs.done := congrArg (·.regs.done) h
  have hc : s1.regs.cause = s.regs.cause := congrArg (·.regs.cause) h
  have hp : s1.regs.pixCount = s.regs.pixCount := congrArg (·.regs.pixCount) h
  have hm : s1.mem = s.mem := congrArg (·.mem) h
  obtain ⟨hhost, hstatus, hpixels⟩ := ht
  rw [hd, hc] at hstatus
  rw [hp, hm] at hpixels
  exact ⟨hhost.trans (blankEngine_eq_of_blankStream h), hstatus, hpixels⟩

/-- `UpdateLzwState` may end any step (R246). -/
theorem EngineFrame.updateLzwState {s t : State} (h : EngineFrame s t) : EngineFrame s (updateLzwState t) :=
  ⟨h.host, h.status, h.pixels⟩

theorem engineFrame_finish (c : Cause) (s : State) : EngineFrame s (finish c s) :=
  ⟨rfl, .inl rfl, .inl ⟨rfl, rfl⟩⟩

theorem engineFrame_corruptExit (c : Cause) (s : State) : EngineFrame s (corruptExit c s) := by
  unfold corruptExit
  split
  · exact engineFrame_finish .inputEof s
  · exact ⟨rfl, .inr ⟨rfl, rfl⟩, .inl ⟨rfl, rfl⟩⟩

theorem engineFrame_pixel (i : Byte) (s : State) : EngineFrame s (toTailWhenFull (writePixel i s)) where
  host := by unfold toTailWhenFull; split <;> rfl
  status := .inr (by simp)
  pixels := .inr (by simp)

theorem engineFrame_fillResult (r : IndexResult) (s : State) : EngineFrame s (fillResult r s) := by
  cases r with
  | index i => exact engineFrame_pixel i s
  | endOfData => exact engineFrame_finish .shortData s
  | corrupt c => exact engineFrame_corruptExit c s

theorem engineFrame_tailResult (r : IndexResult) (s : State) : EngineFrame s (tailResult r s) := by
  cases r with
  | index i => exact ⟨rfl, .inr ⟨rfl, rfl⟩, .inl ⟨rfl, rfl⟩⟩
  | endOfData => exact engineFrame_finish .ok s
  | corrupt c => exact engineFrame_corruptExit c s

/-! ### The ends of a FILL or TAIL step -/

theorem settle_engineFrame {r : IndexResult} {s t : State} (h : settle r s = .next t) : EngineFrame s t := by
  unfold settle at h
  cases hp : s.phase <;> simp only [hp] at h <;> cases h
  case fill => exact (engineFrame_fillResult r s).updateLzwState
  case tail => exact (engineFrame_tailResult r s).updateLzwState

/-- A step that reads an index from `s` and settles it. -/
theorem settle_engineFrame_of_reading {s t : State} {q : IndexResult × State} (hq : blankStream q.2 = blankStream s)
    (h : settle q.1 q.2 = .next t) : EngineFrame s t :=
  .after_reading hq (settle_engineFrame h)

theorem readOn_engineFrame {s t : State} (h : readOn s = .next t) : EngineFrame s t := by
  rw [readOn] at h
  cases hr : readIndex s with
  | none => simp [hr] at h
  | some q =>
    rw [hr] at h
    exact settle_engineFrame_of_reading (nextIndexLoop_blankStream hr) h

/-! ### The instructions of the stream -/

theorem exec_decodeCode_engineFrame {k : CodeContext} {c : Code} {s t : State}
    (h : exec (decodeCode k c) s = .next t) : EngineFrame s t := by
  unfold decodeCode at h
  cases hk : classify k c <;> simp only [hk] at h
  case clear => exact .after_reading (blankStream_clearTable s) (readOn_engineFrame h)
  case endOfImage => exact settle_engineFrame_of_reading (blankStream_runEnd s) h
  case first => exact settle_engineFrame_of_reading (blankStream_runFirst c s) h
  case badFirst => exact settle_engineFrame_of_reading (blankStream_runBadFirst c s) h
  case literal => exact settle_engineFrame_of_reading (blankStream_runLiteral c s) h
  case defined => exact settle_engineFrame_of_reading (blankStream_runDefined c s) h
  case kwkwk => exact settle_engineFrame_of_reading (blankStream_runKwkwk c s) h

theorem execSubTerminator_engineFrame {s t : State} (h : execSubTerminator s = .next t) : EngineFrame s t := by
  refine .after_reading (blankStream_setExhausted s) ?_
  unfold execSubTerminator at h
  cases hp : s.phase <;> simp only [hp] at h
  case fill => exact readOn_engineFrame h
  case tail => exact readOn_engineFrame h
  case drain => cases h; exact engineFrame_finish s.pend _
  all_goals cases h

theorem refillAndReadOn_engineFrame {n : Byte} {s t : State} (h : refillAndReadOn n s = .next t) :
    EngineFrame s t := by
  refine .after_reading (blankStream_readPayload n s) ?_
  unfold refillAndReadOn at h
  cases hr : readPayload n s with
  | mk q u =>
    rw [hr] at h
    cases q with
    | eof => exact settle_engineFrame_of_reading (blankStream_raiseCorrupt .inputEof u) h
    | block _ data => exact .after_reading (blankStream_rd u _) (readOn_engineFrame h)

theorem skipPayload_engineFrame {n : Byte} {s t : State} (h : skipPayload n s = .next t) : EngineFrame s t := by
  refine .after_reading (blankStream_readPayload n s) ?_
  unfold skipPayload at h
  cases hr : readPayload n s with
  | mk q u =>
    rw [hr] at h
    cases q with
    | eof => cases h; exact engineFrame_finish .inputEof u
    | block _ _ => cases h; exact .refl _

theorem execSubData_engineFrame {n : Byte} {s t : State} (h : execSubData n s = .next t) : EngineFrame s t := by
  unfold execSubData at h
  cases hp : s.phase <;> simp only [hp] at h
  case fill => exact refillAndReadOn_engineFrame h
  case tail => exact refillAndReadOn_engineFrame h
  case drain => exact skipPayload_engineFrame h
  all_goals cases h

theorem exec_decodeSub_engineFrame {n : Byte} {s t : State} (h : exec (decodeSub n) s = .next t) :
    EngineFrame s t := by
  unfold decodeSub at h
  split at h
  · exact execSubTerminator_engineFrame h
  · exact execSubData_engineFrame h

theorem execRootValid_engineFrame {r : Byte} {s t : State} (h : execRootValid r s = .next t) : EngineFrame s t := by
  unfold execRootValid at h
  cases hp : s.phase <;> simp only [hp] at h <;> cases h
  case root => exact ⟨rfl, .inr ⟨rfl, rfl⟩, .inl ⟨rfl, rfl⟩⟩

theorem execRootInvalid_engineFrame {r : Byte} {s t : State} (h : execRootInvalid r s = .next t) :
    EngineFrame s t := by
  unfold execRootInvalid at h
  cases hp : s.phase <;> simp only [hp] at h <;> cases h
  case root => exact ⟨rfl, .inr ⟨rfl, rfl⟩, .inl ⟨rfl, rfl⟩⟩

theorem exec_decodeRoot_engineFrame {r : Byte} {s t : State} (h : exec (decodeRoot r) s = .next t) :
    EngineFrame s t := by
  unfold decodeRoot at h
  split at h
  · exact execRootValid_engineFrame h
  · exact execRootInvalid_engineFrame h

/-! ### The fetch and the step -/

/-- What a fetch from `s` gives lies within the frame: what it took was read from the stream, a token is a code, a
sub-block's length byte or a root byte, and a step that is over completed the frame. -/
def Fetch.Framed (s : State) : Fetch → Prop
  | .noStep => True
  | .token i s1 =>
    blankStream s1 = blankStream s
      ∧ ((∃ k c, i = decodeCode k c) ∨ (∃ n, i = decodeSub n) ∨ ∃ r, i = decodeRoot r)
  | .result _ s1 => blankStream s1 = blankStream s
  | .over t => ∃ c s1, blankStream s1 = blankStream s ∧ t = finish c s1

theorem fetchCode_framed (s : State) : (fetchCode s).Framed s := by
  unfold fetchCode
  split_ifs
  · exact ⟨blankStream_rd s _, .inl ⟨_, _, rfl⟩⟩
  · exact blankStream_streamEnded s
  · rcases takeByte_cases s with ⟨-, h⟩ | ⟨b, rest, -, h⟩ <;> simp only [h]
    · exact blankStream_raiseCorrupt .inputEof s
    · exact ⟨blankStream_tookBytes 1 rest s, .inr (.inl ⟨b, rfl⟩)⟩

theorem fetchIndex_framed (s : State) : (fetchIndex s).Framed s := by
  unfold fetchIndex
  cases h : heldIndex s with
  | none => exact fetchCode_framed s
  | some q => exact heldIndex_blankStream h

theorem fetchRoot_framed (s : State) : (fetchRoot s).Framed s := by
  unfold fetchRoot
  rcases takeByte_cases s with ⟨-, h⟩ | ⟨b, rest, -, h⟩ <;> simp only [h]
  · exact ⟨.inputEof, s, rfl, rfl⟩
  · exact ⟨blankStream_tookBytes 1 rest s, .inr (.inr ⟨b, rfl⟩)⟩

theorem fetchDrain_framed (s : State) : (fetchDrain s).Framed s := by
  unfold fetchDrain
  split_ifs
  · exact ⟨s.pend, discard s, blankStream_discard s, rfl⟩
  · rcases takeByte_cases (discard s) with ⟨-, h⟩ | ⟨b, rest, -, h⟩ <;> simp only [h]
    · exact ⟨.inputEof, discard s, blankStream_discard s, rfl⟩
    · exact ⟨(blankStream_tookBytes 1 rest _).trans (blankStream_discard s), .inr (.inl ⟨b, rfl⟩)⟩

theorem fetch_framed (s : State) : (fetch s).Framed s := by
  cases hp : s.phase
  case idle => rw [fetch_idle hp]; trivial
  case root => rw [fetch_root hp]; exact fetchRoot_framed s
  case drain => rw [fetch_drain hp]; exact fetchDrain_framed s
  all_goals rw [fetch_decoding (by simp [decoding, hp])]; exact fetchIndex_framed s

/-- An engine step that answers a next state answers it within the frame (R230). -/
theorem engineStep_engineFrame {s t : State} (h : engineStep s = .next t) : EngineFrame s t := by
  have hf := fetch_framed s
  rw [engineStep] at h
  cases he : fetch s <;> rw [he] at h hf
  case noStep => cases h; exact .refl s
  case token i s1 =>
    obtain ⟨hs, hi⟩ := hf
    refine .after_reading hs ?_
    rcases hi with ⟨k, c, rfl⟩ | ⟨n, rfl⟩ | ⟨r, rfl⟩
    · exact exec_decodeCode_engineFrame h
    · exact exec_decodeSub_engineFrame h
    · exact exec_decodeRoot_engineFrame h
  case result r s1 => exact .after_reading hf (settle_engineFrame h)
  next u =>
    cases h
    obtain ⟨c, s1, hs, rfl⟩ := hf
    exact .after_reading hs (engineFrame_finish c s1)

/-- The engine's move takes its step or waits, and waiting changes nothing (R62, R312). -/
theorem engineMove_engineFrame {s t : State} (h : engineMove s = .next t) : EngineFrame s t := by
  rcases engineMove_cases h with hstep | ⟨rfl, -, -⟩
  · exact engineStep_engineFrame hstep
  · exact .refl t

theorem EngineFrame.pal_eq {s t : State} (h : EngineFrame s t) : t.pal = s.pal := congrArg (·.pal) h.host

theorem EngineFrame.cfg_eq {s t : State} (h : EngineFrame s t) : t.cfg = s.cfg := congrArg (·.cfg) h.host

/-- Settles O58: every field the statement names is one that `blankEngine` leaves. -/
theorem engineMovesLeaveHostRegisters : Obligations.EngineMovesLeaveHostRegisters := by
  intro s t h
  obtain ⟨hhost, -, hpixels⟩ := engineMove_engineFrame h
  simp only [blankEngine, blankStream, State.mk.injEq, HostRegs.mk.injEq] at hhost
  simp only [hhost, true_and]
  exact hpixels

end Sys2Proof.Machine
end

section
/-! What a host operation can change, and with the engine's frame what a step can do to palette, working copies and
status. -/

namespace Sys2Proof.Machine

/-! ### What a host word decodes to -/

/-- The rows of the opcode table that host words decode to (R88): all but the codes and the stream tokens. -/
def isHostOp : Instr → Bool
  | .clear | .endCode | .first _ | .badFirst _ | .literal _ | .defined _ | .kwkwk _ => false
  | .subTerminator | .subData _ | .rootValid _ | .rootInvalid _ => false
  | _ => true

theorem isHostOp_decodeRead (idx : BitVec 6) (lo : BitVec 2) (data : Word) : isHostOp (decodeRead idx lo data) = true := by
  unfold decodeRead
  split
  case h_15 => split_ifs <;> rfl
  all_goals rfl

theorem isHostOp_decodeCtrl (lo : BitVec 2) (data : Word) : isHostOp (decodeCtrl lo data) = true := by
  unfold decodeCtrl
  split_ifs <;> rfl

theorem isHostOp_decodeWrite (idx : BitVec 6) (lo : BitVec 2) (data : Word) :
    isHostOp (decodeWrite idx lo data) = true := by
  unfold decodeWrite
  split
  case h_2 => exact isHostOp_decodeCtrl lo data
  case h_15 => split_ifs <;> rfl
  all_goals rfl

theorem isHostOp_decodeHost (w : HostWord) : isHostOp (decodeHost w) = true := by
  unfold decodeHost
  split_ifs
  · exact isHostOp_decodeWrite _ _ _
  · exact isHostOp_decodeRead _ _ _

/-- A word decodes to the START row only with bit 0 of its data set (R89). -/
theorem decodeCtrl_start {lo lo' : BitVec 2} {data data' : Word} (h : decodeCtrl lo data = .wrCtrlStart lo' data') :
    data'.getLsbD 0 = true := by
  unfold decodeCtrl at h
  split_ifs at h with h1 h0
  cases h
  exact h0

theorem decodeWrite_start {idx : BitVec 6} {lo lo' : BitVec 2} {data data' : Word}
    (h : decodeWrite idx lo data = .wrCtrlStart lo' data') : data'.getLsbD 0 = true := by
  unfold decodeWrite at h
  split at h
  case h_2 => exact decodeCtrl_start h
  case h_15 => split_ifs at h
  all_goals cases h

theorem decodeRead_ne_start (idx : BitVec 6) (lo lo' : BitVec 2) (data data' : Word) :
    decodeRead idx lo data ≠ .wrCtrlStart lo' data' := by
  unfold decodeRead
  split
  case h_15 => split_ifs <;> nofun
  all_goals nofun

theorem decodeHost_start {w : HostWord} {lo : BitVec 2} {data : Word} (h : decodeHost w = .wrCtrlStart lo data) :
    data.getLsbD 0 = true := by
  unfold decodeHost at h
  split_ifs at h
  · exact decodeWrite_start h
  · exact absurd h (decodeRead_ne_start _ _ _ _ _)

/-! ### What a host operation can do -/

/-- A write to a configuration register leaves the registers that the block itself writes, and `IRQ_EN` (R112 to R125). -/
structure ConfigWrite (r r' : HostRegs) : Prop where
  done : r'.done = r.done
  cause : r'.cause = r.cause
  errBusy : r'.errBusy = r.errBusy
  doneIe : r'.doneIe = r.doneIe
  pixCount : r'.pixCount = r.pixCount
  lzwState : r'.lzwState = r.lzwState
  bytesIn : r'.bytesIn = r.bytesIn

/-- Everything host operation `i` can do in state `s`: the next states it may answer (R88, R89, R111 to R128). -/
inductive HostEffect (i : Instr) (s : State) : State → Prop
  | replied (v : Word) : HostEffect i s { s with rdata := v }
  | ignored : HostEffect i s s
  | configured (r : HostRegs) (h : ConfigWrite s.regs r) : HostEffect i s { s with regs := r }
  | aborted (lo : BitVec 2) (data : Word) (hi : i = .wrCtrlAbort lo data) (h0 : data.getLsbD 0 = false) :
      HostEffect i s (abortFrame s)
  | restarted (lo : BitVec 2) (data : Word) (hi : i = .wrCtrlAbort lo data) (h0 : data.getLsbD 0 = true) :
      HostEffect i s (startFrame (abortFrame s))
  | started (lo : BitVec 2) (data : Word) (hi : i = .wrCtrlStart lo data) : HostEffect i s (startFrame s)
  | cleared (lo : BitVec 2) (data : Word) (hi : i = .wrStatus lo data) :
      HostEffect i s
        { s with
          regs :=
            { s.regs with
              done := s.regs.done && !dataClearDone data
              errBusy := s.regs.errBusy && !dataClearErr data } }
  | irqEnabled (lo : BitVec 2) (data : Word) (hi : i = .wrIrqEn lo data) :
      HostEffect i s { s with regs := { s.regs with doneIe := dataDoneIe data } }
  | loaded (lo : BitVec 2) (data : Word) (hi : i = .wrPalData lo data) (hp : s.phase = .idle) :
      HostEffect i s
        { s with
          pal := cellSet s.regs.palIndex.toNat (dataRgb data) s.pal
          regs := { s.regs with palIndex := s.regs.palIndex + 1 } }
  | refused (lo : BitVec 2) (data : Word) (hi : i = .wrPalData lo data) (hp : s.phase ≠ .idle) :
      HostEffect i s { s with regs := { s.regs with errBusy := true } }

theorem exec_hostEffect {i : Instr} {s t : State} (hi : isHostOp i = true) (h : exec i s = .next t) :
    HostEffect i s t := by
  cases i with
  | clear | endCode | first | badFirst | literal | defined | kwkwk | subTerminator | subData | rootValid | rootInvalid =>
    cases hi
  | rdId | rdCtrl | rdStatus | rdIrqEn | rdFrameW | rdFrameH | rdFrameCfg | rdFbBase | rdPalIndex | rdPalData
  | rdPixCount | rdLzwState | rdBytesIn | rdReserved34 | rdReserved38 | rdReserved40 | rdReserved80 =>
    cases h
    exact .replied _
  | wrId | wrCtrlNone | wrPixCount | wrLzwState | wrBytesIn | wrReserved34 | wrReserved38 | wrReserved40
  | wrReserved80 =>
    cases h
    exact .ignored
  | wrFrameW | wrFrameH | wrFrameCfg | wrFbBase | wrPalIndex =>
    cases h
    exact .configured _ ⟨rfl, rfl, rfl, rfl, rfl, rfl, rfl⟩
  | wrCtrlAbort lo data =>
    cases h
    split_ifs with h0
    · exact .restarted lo data rfl h0
    · exact .aborted lo data rfl (Bool.eq_false_iff.mpr h0)
  | wrCtrlStart lo data =>
    cases h
    exact .started lo data rfl
  | wrStatus lo data =>
    cases h
    exact .cleared lo data rfl
  | wrIrqEn lo data =>
    cases h
    exact .irqEnabled lo data rfl
  | wrPalData lo data =>
    simp only [exec, execWrPalData] at h
    split_ifs at h with hp <;> cases h
    · exact .loaded lo data rfl hp
    · exact .refused lo data rfl hp

/-! ### What a step can do, by who acts -/

/-- Everything a step can do, by who acts in it (R7): the engine, the host by an operation, a reset, or the host at the
input port and the frame memory, whose moves change nothing of the block. -/
theorem step_cases_by_agent {s t : State} (h : step s = .next t) :
    (∃ agenda, engineMove { s with agenda := agenda } = .next t)
      ∨ (∃ w rest, s.agenda = .op w :: rest ∧ HostEffect (decodeHost w) { s with agenda := rest } t)
      ∨ (∃ rest, s.agenda = .reset :: rest ∧ t = resetBlock { s with agenda := rest })
      ∨ ∃ agenda input inEof reply draws,
          t = { s with agenda := agenda, input := input, inEof := inEof, frameReply := reply, draws := draws } := by
  rcases step_cases h with ⟨-, he⟩ | ⟨m, rest, ha, hm⟩
  · exact .inl ⟨s.agenda, he⟩
  · rcases hm with ⟨w, rfl, he⟩ | ⟨bytes, -, rfl⟩ | ⟨-, rfl⟩ | ⟨-, he⟩ | ⟨-, -, rfl⟩ | ⟨-, -, he⟩ | ⟨a, -, rfl⟩
      | ⟨rfl, rfl⟩ | ⟨n, -, rfl⟩
    · exact .inr (.inl ⟨w, rest, ha, exec_hostEffect (isHostOp_decodeHost w) he⟩)
    · exact .inr (.inr (.inr ⟨_, _, _, _, _, rfl⟩))
    · exact .inr (.inr (.inr ⟨_, _, _, _, _, rfl⟩))
    · exact .inl ⟨rest, he⟩
    · exact .inr (.inr (.inr ⟨_, _, _, _, _, rfl⟩))
    · exact .inl ⟨s.agenda, he⟩
    · unfold readFrame
      split_ifs <;> exact .inr (.inr (.inr ⟨_, _, _, _, _, rfl⟩))
    · exact .inr (.inr (.inl ⟨rest, ha, rfl⟩))
    · exact .inr (.inr (.inr ⟨_, _, _, _, _, rfl⟩))

/-! ### Palette and working copies -/

/-- Only a `PAL_DATA` write while IDLE changes the palette (R36, R123). -/
theorem HostEffect.pal_eq_or_load {i : Instr} {s t : State} (h : HostEffect i s t) :
    t.pal = s.pal ∨ (s.phase = .idle ∧ ∃ lo data, i = .wrPalData lo data) := by
  cases h with
  | loaded lo data hi hp => exact .inr ⟨hp, lo, data, hi⟩
  | _ => exact .inl (by simp)

/-- Only a `CTRL` write with a command latches working copies (R35). -/
theorem HostEffect.cfg_eq_or_start {i : Instr} {s t : State} (h : HostEffect i s t) :
    t.cfg = s.cfg ∨ (∃ lo data, i = .wrCtrlStart lo data)
      ∨ ∃ lo data, i = .wrCtrlAbort lo data ∧ data.getLsbD 0 = true := by
  cases h with
  | started lo data hi => exact .inr (.inl ⟨lo, data, hi⟩)
  | restarted lo data hi h0 => exact .inr (.inr ⟨lo, data, hi, h0⟩)
  | _ => exact .inl (by simp)

/-- Settles O57: of the operations of the host only the named ones reach palette or working copies, and an engine step
reaches neither. -/
theorem onlyTheHostWritesThePalette : Obligations.OnlyTheHostWritesThePalette := by
  intro s t h
  rcases step_cases_by_agent h with ⟨agenda, he⟩ | ⟨w, rest, ha, he⟩ | ⟨rest, ha, -⟩ | ⟨_, _, _, _, _, rfl⟩
  · have hf := engineMove_engineFrame he
    exact ⟨fun hne => absurd hf.pal_eq hne, fun hne => absurd hf.cfg_eq hne⟩
  · refine ⟨fun hne => .inl ?_, fun hne => .inl ?_⟩
    · obtain ⟨hidle, lo, data, hw⟩ := he.pal_eq_or_load.resolve_left hne
      exact ⟨hidle, w, rest, lo, data, ha, hw⟩
    · rcases he.cfg_eq_or_start.resolve_left hne with ⟨lo, data, hw⟩ | ⟨lo, data, hw, h0⟩
      · exact ⟨w, rest, lo, data, ha, .inl hw, decodeHost_start hw⟩
      · exact ⟨w, rest, lo, data, ha, .inr hw, h0⟩
  · exact ⟨fun _ => .inr ⟨rest, ha⟩, fun _ => .inr ⟨rest, ha⟩⟩
  · exact ⟨fun hne => absurd rfl hne, fun hne => absurd rfl hne⟩

/-! ### The status while BUSY -/

theorem quietWhileBusy_iff (s : State) :
    quietWhileBusy s = true ↔ s.phase = .idle ∨ (s.regs.done = false ∧ s.regs.cause = .ok) := by
  simp [quietWhileBusy]

theorem quietWhileBusy_of_idle {s : State} (h : s.phase = .idle) : quietWhileBusy s = true :=
  (quietWhileBusy_iff s).mpr (.inl h)

/-- A move that leaves phase, `DONE` and `CAUSE` keeps a BUSY block quiet. -/
theorem quietWhileBusy_of_same_status {s t : State} (h : quietWhileBusy s = true) (hp : t.phase = s.phase)
    (hd : t.regs.done = s.regs.done) (hc : t.regs.cause = s.regs.cause) : quietWhileBusy t = true := by
  rw [quietWhileBusy_iff] at h ⊢
  rwa [hp, hd, hc]

theorem abortFrame_phase (s : State) : (abortFrame s).phase = .idle := by
  unfold abortFrame
  split_ifs with h
  · exact h
  · rfl

/-- START clears `DONE` and `CAUSE` when it starts a frame, and leaves a running one alone (R113, R114). -/
theorem quietWhileBusy_startFrame {s : State} (h : quietWhileBusy s = true) : quietWhileBusy (startFrame s) = true := by
  unfold startFrame
  split_ifs
  · rfl
  · exact quietWhileBusy_of_same_status h rfl rfl rfl

/-- A host operation keeps a BUSY block quiet: only START leaves IDLE, and a write of STATUS only clears. -/
theorem HostEffect.quietWhileBusy {i : Instr} {s t : State} (h : HostEffect i s t)
    (hs : quietWhileBusy s = true) : quietWhileBusy t = true := by
  cases h with
  | replied | ignored | irqEnabled | loaded | refused => exact quietWhileBusy_of_same_status hs rfl rfl rfl
  | configured r hr => exact quietWhileBusy_of_same_status hs rfl hr.done hr.cause
  | aborted => exact quietWhileBusy_of_idle (abortFrame_phase s)
  | restarted => exact quietWhileBusy_startFrame (quietWhileBusy_of_idle (abortFrame_phase s))
  | started => exact quietWhileBusy_startFrame hs
  | cleared =>
    rw [quietWhileBusy_iff] at hs ⊢
    exact hs.imp_right fun ⟨hd, hc⟩ => ⟨by simp [hd], hc⟩

/-- The engine's move keeps a BUSY block quiet: a step that writes `DONE` and `CAUSE` ends the frame (R272). -/
theorem engineMove_quietWhileBusy {s t : State} (hs : quietWhileBusy s = true) (h : engineMove s = .next t) :
    quietWhileBusy t = true := by
  by_cases hidle : s.phase = .idle
  · rw [engineMove_idle hidle] at h
    cases h
    exact hs
  · obtain ⟨hd, hc⟩ := ((quietWhileBusy_iff s).mp hs).resolve_left hidle
    rw [quietWhileBusy_iff]
    exact (engineMove_engineFrame h).status.imp_right fun ⟨hd', hc'⟩ => ⟨hd'.trans hd, hc'.trans hc⟩

/-- Settles O46, by who acts in the step; a reset and the moves at the ports need no argument. -/
theorem statusIsQuietWhileBusy : Obligations.StatusIsQuietWhileBusy := by
  intro s t hs h
  rcases step_cases_by_agent h with ⟨agenda, he⟩ | ⟨w, rest, -, he⟩ | ⟨rest, -, rfl⟩ | ⟨_, _, _, _, _, rfl⟩
  · exact engineMove_quietWhileBusy (s := { s with agenda := agenda }) hs he
  · exact he.quietWhileBusy hs
  · rfl
  · exact hs

/-! ### The reset state -/

/-- Every register but `ID` and `PAL_DATA` reads 0 at reset (R45). -/
theorem registerWord_reset {idx : BitVec 6} (h0 : idx ≠ 0) (h9 : idx ≠ 9) : registerWord idx State.reset = 0#32 := by
  have hstatus : statusWord State.reset = 0#32 := rfl
  have hirqEn : irqEnWord State.reset.regs = 0#32 := rfl
  have hframeW : frameWWord State.reset.regs = 0#32 := rfl
  have hframeH : frameHWord State.reset.regs = 0#32 := rfl
  have hframeCfg : frameCfgWord State.reset.regs = 0#32 := rfl
  have hfbBase : State.reset.regs.fbBase = 0#32 := rfl
  have hpalIndex : palIndexWord State.reset.regs = 0#32 := rfl
  have hpixCount : State.reset.regs.pixCount = 0#32 := rfl
  have hlzwState : lzwStateWord State.reset.regs = 0#32 := rfl
  have hbytesIn : State.reset.regs.bytesIn = 0#32 := rfl
  simp only [registerWord, if_neg h0, if_neg h9, hstatus, hirqEn, hframeW, hframeH, hframeCfg, hfbBase, hpalIndex,
    hpixCount, hlzwState, hbytesIn, ite_self]

theorem readerBounded_reset : readerBounded State.reset.rd = true := by
  simp only [readerBounded, State.reset, BitVec.ofNat_eq_ofNat, BitVec.toNat_ofNat, Nat.zero_mod]
  decide

/-- At reset the engine decodes nothing and drains nothing. -/
theorem engineInv_reset : engineInv State.reset = true := by
  rw [engineInv, readerBounded_reset]
  rfl

theorem tableInv_reset : tableInv State.reset = true := by
  rw [tableInv, engineInv_reset]
  rfl

/-- Settles O45: IDLE makes the status, table and raster invariants hold, and every list of the reset state is empty. -/
theorem resetMeetsTheInvariants : Obligations.ResetMeetsTheInvariants :=
  ⟨rfl, rfl, engineInv_reset, tableInv_reset, rfl, rfl, rfl, rfl, fun _ => registerWord_reset, rfl⟩

end Sys2Proof.Machine
end

section
/-! What an engine step can do, said once: it reads the stream, and then it ends in one of six ways. -/

namespace Sys2Proof.Machine

/-! ### Reading the stream -/

/-- What reading the stream from `s` to `t` can do: it takes bytes from the front of `IN` and counts them (R33, R62);
outside ROOT it takes nothing once the terminator has been read (R161); the table keeps its canonical form, and every
field that `blankStream` leaves keeps its value. -/
structure StreamRead (s t : State) : Prop where
  frame : blankStream t = blankStream s
  bytes : ∃ taken, s.input = taken ++ t.input ∧ t.regs.bytesIn = s.regs.bytesIn + BitVec.ofNat 32 taken.length
  exhausted : s.rd.exhausted = true → s.phase ≠ .root → t.input = s.input ∧ t.rd.exhausted = true
  table : keysRising s.lzw.table = true → keysRising t.lzw.table = true

namespace StreamRead

variable {s t u : State}

theorem phase_eq (h : StreamRead s t) : t.phase = s.phase := congrArg (·.phase) h.frame
theorem cfg_eq (h : StreamRead s t) : t.cfg = s.cfg := congrArg (·.cfg) h.frame
theorem cur_eq (h : StreamRead s t) : t.cur = s.cur := congrArg (·.cur) h.frame
theorem mem_eq (h : StreamRead s t) : t.mem = s.mem := congrArg (·.mem) h.frame

/-- A change that takes no byte. -/
theorem of_same_input (frame : blankStream t = blankStream s) (hin : t.input = s.input)
    (hbytes : t.regs.bytesIn = s.regs.bytesIn) (hex : s.rd.exhausted = true → t.rd.exhausted = true)
    (table : keysRising s.lzw.table = true → keysRising t.lzw.table = true) : StreamRead s t where
  frame := frame
  bytes := ⟨[], hin.symm, by simp [hbytes]⟩
  exhausted hx _ := ⟨hin, hex hx⟩
  table := table

theorem refl (s : State) : StreamRead s s := of_same_input rfl rfl rfl id id

theorem trans (h : StreamRead s t) (h' : StreamRead t u) : StreamRead s u where
  frame := h'.frame.trans h.frame
  bytes := by
    obtain ⟨taken, hin, hcount⟩ := h.bytes
    obtain ⟨taken', hin', hcount'⟩ := h'.bytes
    refine ⟨taken ++ taken', by rw [hin, hin', List.append_assoc], ?_⟩
    rw [hcount', hcount, List.length_append, BitVec.ofNat_add, BitVec.add_assoc]
  exhausted hx hroot := by
    obtain ⟨hin, hx'⟩ := h.exhausted hx hroot
    obtain ⟨hin', hx''⟩ := h'.exhausted hx' (h.phase_eq ▸ hroot)
    exact ⟨hin'.trans hin, hx''⟩
  table := h'.table ∘ h.table

end StreamRead

/-- A byte may be taken: the terminator has not been read, or the step is a ROOT step, whose byte comes before the next
frame's sub-blocks and their terminator (R161, R232). -/
def mayTake (s : State) : Prop := s.rd.exhausted = false ∨ s.phase = .root

theorem streamRead_tookBytes {s : State} {taken rest : List Byte} (h : s.input = taken ++ rest) (hmay : mayTake s) :
    StreamRead s (tookBytes taken.length rest s) where
  frame := blankStream_tookBytes _ rest s
  bytes := ⟨taken, h, rfl⟩
  exhausted hx hroot := hmay.elim (fun he => absurd hx (Bool.eq_false_iff.mp he)) (fun hr => absurd hr hroot)
  table := id

theorem streamRead_rd (s : State) {r : Reader} (h : s.rd.exhausted = true → r.exhausted = true) :
    StreamRead s { s with rd := r } :=
  .of_same_input (blankStream_rd s r) rfl rfl h id

theorem streamRead_lzw (s : State) {l : Lzw} (h : keysRising s.lzw.table = true → keysRising l.table = true) :
    StreamRead s { s with lzw := l } :=
  .of_same_input (blankStream_lzw s l) rfl rfl id h

theorem streamRead_discard (s : State) : StreamRead s (discard s) := streamRead_rd s id

theorem streamRead_setExhausted (s : State) : StreamRead s (setExhausted s) := streamRead_rd s fun _ => rfl

theorem streamRead_clearTable (s : State) : StreamRead s (clearTable s) :=
  streamRead_lzw s (keysRising_resetTable s.lzw)

theorem streamRead_raiseCorrupt (c : Cause) (s : State) : StreamRead s (raiseCorrupt c s).2 := streamRead_lzw s id

theorem streamRead_endOfData (s : State) : StreamRead s (endOfData s).2 := streamRead_lzw s id

theorem streamRead_streamEnded (s : State) : StreamRead s (streamEnded s).2 :=
  .of_same_input (blankStream_streamEnded s) rfl rfl id id

theorem streamRead_readPayload (n : Byte) {s : State} (hmay : mayTake s) : StreamRead s (readPayload n s).2 := by
  rcases readPayload_cases n s with ⟨-, h⟩ | ⟨data, rest, -, hin, h⟩ <;> rw [h]
  · exact streamRead_tookBytes (List.append_nil _).symm hmay
  · exact streamRead_tookBytes hin hmay

theorem streamRead_readSubBlock {s : State} (hmay : mayTake s) : StreamRead s (readSubBlock s).2 := by
  rcases readSubBlock_cases s with ⟨-, h⟩ | ⟨n, data, rest, -, hin, h⟩ <;> rw [h]
  · exact streamRead_tookBytes (List.append_nil _).symm hmay
  · exact streamRead_tookBytes (taken := n :: data) hin hmay

theorem streamRead_nextCode (w : Nat) (s : State) : StreamRead s (nextCode w s).2 := by
  obtain ⟨taken, rest, hin, h⟩ := nextCode_frame w s
  refine ⟨blankStream_nextCode w s, ⟨taken, by rw [h]; exact hin, by rw [h]; rfl⟩, fun hx _ => ?_, by rw [h]; exact id⟩
  rw [nextCode_eq]
  split_ifs
  · exact ⟨rfl, hx⟩
  · exact ⟨rfl, hx⟩

/-! ### The table through the code classes -/

theorem push_table (v : Byte) (l : Lzw) : (push v l).unit.table = l.table := by
  rcases push_cases v l with ⟨-, h⟩ | ⟨-, h⟩ <;> rw [h] <;> rfl

theorem walk_table (resets : Nat) (c : Code) (l : Lzw) : (walk resets c l).unit.table = l.table := by
  obtain ⟨syms, first, h⟩ := walk_frame resets c l
  rw [h]

/-- The end of every expansion keeps the table's keys rising (R195). -/
theorem keysRising_andThen_insert {a : Attempt} (c : Code) (h : keysRising a.unit.table = true) :
    keysRising (andThen a fun l => .ok (insertThenOld c l)).unit.table = true := by
  cases a with
  | ok l => exact keysRising_insertEntry l h
  | raised e l => exact h

theorem keysRising_literalOp (c : Code) {l : Lzw} (h : keysRising l.table = true) :
    keysRising (literalOp c l).unit.table = true :=
  keysRising_andThen_insert c (by rwa [push_table])

theorem keysRising_definedOp (resets : Nat) (c : Code) {l : Lzw} (h : keysRising l.table = true) :
    keysRising (definedOp resets c l).unit.table = true :=
  keysRising_andThen_insert c (by rwa [walk_table])

theorem keysRising_kwkwkOp (resets : Nat) (c : Code) {l : Lzw} (h : keysRising l.table = true) :
    keysRising (kwkwkOp resets c l).unit.table = true := by
  unfold kwkwkOp
  rcases push_cases l.firstCode l with ⟨-, hp⟩ | ⟨-, hp⟩ <;> rw [hp]
  · exact h
  · exact keysRising_andThen_insert c (by rwa [walk_table])

theorem firstCodeOp_table (c : Code) (l : Lzw) : (firstCodeOp c l).unit.table = l.table := by
  unfold firstCodeOp; split <;> rfl

/-! ### Reading an index -/

theorem streamRead_popAttempt {a : Attempt} (s : State)
    (h : keysRising s.lzw.table = true → keysRising a.unit.table = true) : StreamRead s (popAttempt a s).2 := by
  cases a with
  | ok l => exact streamRead_lzw s h
  | raised c l => exact streamRead_lzw s h

theorem streamRead_runFirst (c : Code) (s : State) : StreamRead s (runFirst c s).2 := by
  have ht := firstCodeOp_table c s.lzw
  unfold runFirst
  cases ha : firstCodeOp c s.lzw <;> rw [ha] at ht
  · exact streamRead_lzw s fun h => ht ▸ h
  · exact streamRead_lzw s fun h => ht ▸ h

theorem streamRead_runBadFirst (c : Code) (s : State) : StreamRead s (runBadFirst c s).2 :=
  streamRead_raiseCorrupt .lzwBadFirstCode s

theorem streamRead_runLiteral (c : Code) (s : State) : StreamRead s (runLiteral c s).2 :=
  streamRead_popAttempt s (keysRising_literalOp c)

theorem streamRead_runDefined (c : Code) (s : State) : StreamRead s (runDefined c s).2 :=
  streamRead_popAttempt s (keysRising_definedOp s.resets c)

theorem streamRead_runKwkwk (c : Code) (s : State) : StreamRead s (runKwkwk c s).2 :=
  streamRead_popAttempt s (keysRising_kwkwkOp s.resets c)

theorem streamRead_runEnd (s : State) : StreamRead s (runEnd s).2 := by
  refine (streamRead_discard s).trans ?_
  unfold runEnd
  split_ifs with hx
  · exact streamRead_endOfData (discard s)
  · have hread := streamRead_readSubBlock (s := discard s) (.inl (Bool.eq_false_iff.mpr hx))
    refine .trans hread ?_
    cases readSubBlock (discard s) with
    | mk q u =>
      cases q with
      | eof => exact streamRead_raiseCorrupt .inputEof u
      | block n data =>
        dsimp only
        split_ifs
        · exact (streamRead_setExhausted u).trans (streamRead_endOfData _)
        · exact streamRead_raiseCorrupt .badTerminator u

/-- A `NextIndex` call that reads codes (R184) only reads the stream. -/
theorem nextIndexLoop_streamRead {turns : Nat} {s t : State} {r : IndexResult}
    (h : nextIndexLoop turns s = some (r, t)) : StreamRead s t := by
  induction turns generalizing s with
  | zero => simp [nextIndexLoop] at h
  | succ turns ih =>
    have hcode := streamRead_nextCode s.lzw.codeSize.toNat s
    have ofEq {s1 : State} {q : IndexResult × State} (he : (r, t) = q) (hq : StreamRead s1 q.2) : StreamRead s1 t := by
      rwa [← he] at hq
    rcases nextIndexLoop_cases h with ⟨-, he⟩ | ⟨-, he⟩ | ⟨c, s1, hn, hk⟩
    · exact hcode.trans (ofEq he (streamRead_streamEnded _))
    · exact hcode.trans (ofEq he (streamRead_raiseCorrupt _ _))
    · rw [hn] at hcode
      refine hcode.trans ?_
      rcases hk with ⟨-, he⟩ | ⟨-, he⟩ | ⟨-, he⟩ | ⟨-, he⟩ | ⟨-, he⟩ | ⟨-, he⟩ | ⟨-, he⟩
      · exact (streamRead_clearTable s1).trans (ih he)
      · exact ofEq he (streamRead_runEnd s1)
      · exact ofEq he (streamRead_runFirst c s1)
      · exact ofEq he (streamRead_runBadFirst c s1)
      · exact ofEq he (streamRead_runLiteral c s1)
      · exact ofEq he (streamRead_runDefined c s1)
      · exact ofEq he (streamRead_runKwkwk c s1)

theorem heldIndex_streamRead {s : State} {q : IndexResult × State} (h : heldIndex s = some q) : StreamRead s q.2 := by
  rcases heldIndex_cases s with ⟨-, he⟩ | ⟨c, -, he⟩ | ⟨-, -, he⟩ | ⟨v, rest, -, -, he⟩ <;> rw [he] at h <;> cases h
  · exact .refl s
  · exact .refl s
  · exact streamRead_lzw s id

/-! ### The ends of an engine step -/

/-- Everything an engine step can do once it has read, from `s`: the next states it may answer (R230 to R234, R242 to
R245). -/
inductive StepEnd (s : State) : State → Prop
  | skipped : StepEnd s s
  | finished (c : Cause) : StepEnd s (finish c s)
  | filled (r : IndexResult) (hp : s.phase = .fill) : StepEnd s (updateLzwState (fillResult r s))
  | tailed (r : IndexResult) (hp : s.phase = .tail) : StepEnd s (updateLzwState (tailResult r s))
  | rootAccepted (r : Byte) (hp : s.phase = .root) :
      StepEnd s (updateLzwState (startDecoding r (setRootByte r s)))
  | rootRefused (r : Byte) (hp : s.phase = .root) :
      StepEnd s { reinit (setRootByte r s) with pend := .badRoot, phase := .drain }

/-- What an engine step from `s` to `t` is made of: reading, then an end. -/
def ReadThenEnd (s t : State) : Prop := ∃ s1, StreamRead s s1 ∧ StepEnd s1 t

theorem StepEnd.readThenEnd {s t : State} (h : StepEnd s t) : ReadThenEnd s t := ⟨s, .refl s, h⟩

/-- Reading may come before the rest of a step. -/
theorem ReadThenEnd.after {s s1 t : State} (h : StreamRead s s1) (ht : ReadThenEnd s1 t) : ReadThenEnd s t := by
  obtain ⟨s2, hread, hend⟩ := ht
  exact ⟨s2, h.trans hread, hend⟩

theorem settle_stepEnd {r : IndexResult} {s t : State} (h : settle r s = .next t) : StepEnd s t := by
  unfold settle at h
  cases hp : s.phase <;> simp only [hp] at h <;> cases h
  case fill => exact .filled r hp
  case tail => exact .tailed r hp

/-- A step that reads an index from `s` and settles it. -/
theorem settle_readThenEnd {s t : State} {q : IndexResult × State} (hq : StreamRead s q.2)
    (h : settle q.1 q.2 = .next t) : ReadThenEnd s t :=
  ⟨q.2, hq, settle_stepEnd h⟩

theorem readOn_readThenEnd {s t : State} (h : readOn s = .next t) : ReadThenEnd s t := by
  rw [readOn] at h
  cases hr : readIndex s with
  | none => simp [hr] at h
  | some q =>
    rw [hr] at h
    exact settle_readThenEnd (nextIndexLoop_streamRead hr) h

/-! ### The instructions of the stream -/

theorem exec_decodeCode_readThenEnd {k : CodeContext} {c : Code} {s t : State}
    (h : exec (decodeCode k c) s = .next t) : ReadThenEnd s t := by
  unfold decodeCode at h
  cases hk : classify k c <;> simp only [hk] at h
  case clear => exact .after (streamRead_clearTable s) (readOn_readThenEnd h)
  case endOfImage => exact settle_readThenEnd (streamRead_runEnd s) h
  case first => exact settle_readThenEnd (streamRead_runFirst c s) h
  case badFirst => exact settle_readThenEnd (streamRead_runBadFirst c s) h
  case literal => exact settle_readThenEnd (streamRead_runLiteral c s) h
  case defined => exact settle_readThenEnd (streamRead_runDefined c s) h
  case kwkwk => exact settle_readThenEnd (streamRead_runKwkwk c s) h

theorem execSubTerminator_readThenEnd {s t : State} (h : execSubTerminator s = .next t) : ReadThenEnd s t := by
  refine .after (streamRead_setExhausted s) ?_
  unfold execSubTerminator at h
  cases hp : s.phase <;> simp only [hp] at h
  case fill => exact readOn_readThenEnd h
  case tail => exact readOn_readThenEnd h
  case drain => cases h; exact (StepEnd.finished s.pend).readThenEnd
  all_goals cases h

theorem appendData_exhausted (r : Reader) (data : List Byte) : (appendData r data).exhausted = r.exhausted := by
  induction data generalizing r with
  | nil => rfl
  | cons b data ih => exact ih (appendByte r b)

theorem refillAndReadOn_readThenEnd {n : Byte} {s t : State} (hmay : mayTake s)
    (h : refillAndReadOn n s = .next t) : ReadThenEnd s t := by
  refine .after (streamRead_readPayload n hmay) ?_
  unfold refillAndReadOn at h
  cases hr : readPayload n s with
  | mk q u =>
    rw [hr] at h
    cases q with
    | eof => exact settle_readThenEnd (streamRead_raiseCorrupt .inputEof u) h
    | block _ data =>
      exact .after (streamRead_rd u (appendData_exhausted u.rd data).trans) (readOn_readThenEnd h)

theorem skipPayload_readThenEnd {n : Byte} {s t : State} (hmay : mayTake s) (h : skipPayload n s = .next t) :
    ReadThenEnd s t := by
  refine .after (streamRead_readPayload n hmay) ?_
  unfold skipPayload at h
  cases hr : readPayload n s with
  | mk q u =>
    rw [hr] at h
    cases q with
    | eof => cases h; exact (StepEnd.finished .inputEof).readThenEnd
    | block _ _ => cases h; exact StepEnd.skipped.readThenEnd

theorem execSubData_readThenEnd {n : Byte} {s t : State} (hmay : mayTake s) (h : execSubData n s = .next t) :
    ReadThenEnd s t := by
  unfold execSubData at h
  cases hp : s.phase <;> simp only [hp] at h
  case fill => exact refillAndReadOn_readThenEnd hmay h
  case tail => exact refillAndReadOn_readThenEnd hmay h
  case drain => exact skipPayload_readThenEnd hmay h
  all_goals cases h

theorem exec_decodeSub_readThenEnd {n : Byte} {s t : State} (hmay : mayTake s)
    (h : exec (decodeSub n) s = .next t) : ReadThenEnd s t := by
  unfold decodeSub at h
  split at h
  · exact execSubTerminator_readThenEnd h
  · exact execSubData_readThenEnd hmay h

theorem execRootValid_stepEnd {r : Byte} {s t : State} (h : execRootValid r s = .next t) : StepEnd s t := by
  unfold execRootValid at h
  cases hp : s.phase <;> simp only [hp] at h <;> cases h
  case root => exact .rootAccepted r hp

theorem execRootInvalid_stepEnd {r : Byte} {s t : State} (h : execRootInvalid r s = .next t) : StepEnd s t := by
  unfold execRootInvalid at h
  cases hp : s.phase <;> simp only [hp] at h <;> cases h
  case root => exact .rootRefused r hp

theorem exec_decodeRoot_readThenEnd {r : Byte} {s t : State} (h : exec (decodeRoot r) s = .next t) :
    ReadThenEnd s t := by
  unfold decodeRoot at h
  split at h
  · exact (execRootValid_stepEnd h).readThenEnd
  · exact (execRootInvalid_stepEnd h).readThenEnd

/-! ### The fetch and the step -/

/-- What the outcome of a fetch from `s` leads to is reading, then an end. -/
def Fetch.LeadsToEnd (s : State) : Fetch → Prop
  | .noStep => True
  | .token i s1 => ∀ t, exec i s1 = .next t → ReadThenEnd s t
  | .result _ s1 => StreamRead s s1
  | .over t => ReadThenEnd s t

theorem fetchCode_leadsToEnd (s : State) : (fetchCode s).LeadsToEnd s := by
  unfold fetchCode
  split_ifs with hw hx
  · exact fun t h => .after (streamRead_rd s (r := (takeCode _ s.rd).2) id) (exec_decodeCode_readThenEnd h)
  · exact streamRead_streamEnded s
  · have hmay : mayTake s := .inl (Bool.eq_false_iff.mpr hx)
    rcases takeByte_cases s with ⟨-, h⟩ | ⟨b, rest, hin, h⟩ <;> simp only [h]
    · exact streamRead_raiseCorrupt .inputEof s
    · exact fun t ht =>
        .after (streamRead_tookBytes (taken := [b]) hin hmay) (exec_decodeSub_readThenEnd hmay ht)

theorem fetchIndex_leadsToEnd (s : State) : (fetchIndex s).LeadsToEnd s := by
  unfold fetchIndex
  cases h : heldIndex s with
  | none => exact fetchCode_leadsToEnd s
  | some q => exact heldIndex_streamRead h

theorem fetchRoot_leadsToEnd {s : State} (hp : s.phase = .root) : (fetchRoot s).LeadsToEnd s := by
  unfold fetchRoot
  rcases takeByte_cases s with ⟨-, h⟩ | ⟨b, rest, hin, h⟩ <;> simp only [h]
  · exact (StepEnd.finished .inputEof).readThenEnd
  · exact fun t ht => .after (streamRead_tookBytes (taken := [b]) hin (.inr hp)) (exec_decodeRoot_readThenEnd ht)

theorem fetchDrain_leadsToEnd (s : State) : (fetchDrain s).LeadsToEnd s := by
  have hdiscard := streamRead_discard s
  unfold fetchDrain
  split_ifs with hx
  · exact ⟨discard s, hdiscard, .finished s.pend⟩
  · have hmay : mayTake (discard s) := .inl (Bool.eq_false_iff.mpr hx)
    rcases takeByte_cases (discard s) with ⟨-, h⟩ | ⟨b, rest, hin, h⟩ <;> simp only [h]
    · exact ⟨discard s, hdiscard, .finished .inputEof⟩
    · exact fun t ht =>
        .after (hdiscard.trans (streamRead_tookBytes (taken := [b]) hin hmay)) (exec_decodeSub_readThenEnd hmay ht)

theorem fetch_leadsToEnd (s : State) : (fetch s).LeadsToEnd s := by
  cases hp : s.phase with
  | idle => rw [fetch_idle hp]; trivial
  | root => rw [fetch_root hp]; exact fetchRoot_leadsToEnd hp
  | fill => rw [fetch_decoding ((decoding_iff s).mpr (.inl hp))]; exact fetchIndex_leadsToEnd s
  | tail => rw [fetch_decoding ((decoding_iff s).mpr (.inr hp))]; exact fetchIndex_leadsToEnd s
  | drain => rw [fetch_drain hp]; exact fetchDrain_leadsToEnd s

theorem engineStep_readThenEnd {s t : State} (h : engineStep s = .next t) : ReadThenEnd s t := by
  have hf := fetch_leadsToEnd s
  unfold engineStep at h
  cases he : fetch s <;> rw [he] at hf <;> simp only [he] at h
  case noStep => cases h; exact StepEnd.skipped.readThenEnd
  case token i s1 => exact hf t h
  case result r s1 => exact ⟨s1, hf, settle_stepEnd h⟩
  next u => cases h; exact hf

/-- The engine's move takes its step or waits, and waiting changes nothing (R62, R312). -/
theorem engineMove_readThenEnd {s t : State} (h : engineMove s = .next t) : ReadThenEnd s t := by
  rcases engineMove_cases h with hstep | ⟨rfl, -, -⟩
  · exact engineStep_readThenEnd hstep
  · exact StepEnd.skipped.readThenEnd

end Sys2Proof.Machine
end

section
/-! What a step can do to frame memory, to the keyed lists and to the input. -/

namespace Sys2Proof.Machine

/-! ### Ends of a step, by part of the state -/

/-- Only a FILL step that got an index writes frame memory, by one pixel write (R234). -/
theorem StepEnd.mem_cases {s t : State} (h : StepEnd s t) :
    t.mem = s.mem ∨ s.phase = .fill ∧ ∃ i, t.mem = (writePixel i s).mem := by
  cases h with
  | filled r hp =>
    cases r with
    | index i => exact .inr ⟨hp, i, by simp [fillResult]⟩
    | endOfData => exact .inl rfl
    | corrupt c => exact .inl (corruptExit_mem c s)
  | tailed r hp =>
    cases r with
    | index i => exact .inl rfl
    | endOfData => exact .inl rfl
    | corrupt c => exact .inl (corruptExit_mem c s)
  | _ => exact .inl rfl

theorem corruptExit_bytesIn (c : Cause) (s : State) : (corruptExit c s).regs.bytesIn = s.regs.bytesIn := by
  unfold corruptExit; split <;> rfl

/-- No end of a step takes a byte. -/
theorem StepEnd.input_eq {s t : State} (h : StepEnd s t) : t.input = s.input ∧ t.regs.bytesIn = s.regs.bytesIn := by
  cases h with
  | filled r hp => cases r <;> simp [fillResult, snapshot, corruptExit_bytesIn]
  | tailed r hp => cases r <;> simp [tailResult, snapshot, corruptExit_bytesIn]
  | _ => exact ⟨rfl, rfl⟩

/-- Only the ROOT step writes the table once it has read, by `Init` (R232). -/
theorem StepEnd.keysRising_table {s t : State} (h : StepEnd s t) (hs : keysRising s.lzw.table = true) :
    keysRising t.lzw.table = true := by
  cases h with
  | filled r hp => cases r <;> simpa [fillResult] using hs
  | tailed r hp => cases r <;> simpa [tailResult] using hs
  | rootAccepted r hp => exact keysRising_resetTable _ hs
  | _ => exact hs

/-! ### Host operations -/

theorem HostEffect.mem_eq {i : Instr} {s t : State} (h : HostEffect i s t) : t.mem = s.mem := by
  cases h <;> simp

theorem HostEffect.lzw_eq {i : Instr} {s t : State} (h : HostEffect i s t) : t.lzw = s.lzw := by
  cases h <;> simp

theorem HostEffect.keysRising_pal {i : Instr} {s t : State} (h : HostEffect i s t) (hs : keysRising s.pal = true) :
    keysRising t.pal = true := by
  cases h with
  | loaded => exact keysRising_cellSet _ _ _ hs
  | _ => simpa using hs

/-! ### Frame memory through a step -/

/-- `t.mem` is `s.mem` with one pixel written at the cursor of `s` (R63, R234). -/
def PixelWritten (s t : State) : Prop :=
  ∃ v, t.mem = memWrite (pixAddr s.cfg s.cur.row.toNat s.cur.col.toNat) v s.cfg.bpp.toNat s.mem

theorem engineMove_mem_cases {s t : State} (h : engineMove s = .next t) :
    t.mem = s.mem ∨ s.phase = .fill ∧ PixelWritten s t := by
  obtain ⟨s1, hread, hend⟩ := engineMove_readThenEnd h
  rcases hend.mem_cases with hm | ⟨hp, i, hm⟩
  · exact .inl (hm.trans hread.mem_eq)
  · refine .inr ⟨hread.phase_eq ▸ hp, pixelValue s1 i, ?_⟩
    rw [hm, writePixel_mem, hread.cfg_eq, hread.cur_eq, hread.mem_eq]

/-- Everything a step can do to frame memory: nothing, or in FILL one pixel write at the cursor (R73, R234). -/
theorem step_mem_cases {s t : State} (h : step s = .next t) :
    t.mem = s.mem ∨ s.phase = .fill ∧ PixelWritten s t := by
  rcases step_cases_by_agent h with ⟨agenda, he⟩ | ⟨w, rest, -, he⟩ | ⟨rest, -, rfl⟩ | ⟨_, _, _, _, _, rfl⟩
  · exact engineMove_mem_cases (s := { s with agenda := agenda }) he
  · exact .inl he.mem_eq
  · exact .inl rfl
  · exact .inl rfl

/-! ### The footprint -/

theorem cfgConsistent_iff (c : FrameCfg) :
    cfgConsistent c = true ↔
      c.total.toNat = c.width.toNat * c.height.toNat ∧ c.bpp = if c.transpEn then 4 else 3 := by
  simp [cfgConsistent]

/-- In FILL the raster invariant has the cursor inside the frame that the copies describe. -/
theorem cursor_in_frame {s : State} (hp : s.phase = .fill) (h : rasterInv s = true) :
    s.cfg.total.toNat = s.cfg.width.toNat * s.cfg.height.toNat
      ∧ s.cur.row.toNat < s.cfg.height.toNat ∧ s.cur.col.toNat < s.cfg.width.toNat := by
  simp only [rasterInv, hp, cursorOnPosition, Bool.and_eq_true, decide_eq_true_eq] at h
  obtain ⟨⟨hcfg, -⟩, ⟨hrow, hcol⟩, -⟩ := h
  exact ⟨((cfgConsistent_iff s.cfg).mp hcfg).1, hrow, hcol⟩

theorem pixAddr_eq (c : FrameCfg) (row col : Nat) :
    pixAddr c row col = c.base + BitVec.ofNat 32 (c.bpp.toNat * (row * c.width.toNat + col)) := by
  rw [pixAddr, BitVec.ofNat_add, BitVec.ofNat_toNat, BitVec.setWidth_eq]

/-- An offset below the footprint's size, counted from `cfgFB` modulo 2^32, lies in the footprint (R73). -/
theorem inFootprint_base_add (c : FrameCfg) {n : Nat} (h : n < c.bpp.toNat * c.total.toNat) :
    inFootprint c (c.base + BitVec.ofNat 32 n) = true := by
  have hsub : c.base + BitVec.ofNat 32 n - c.base = BitVec.ofNat 32 n := by rw [add_sub_cancel_left]
  rw [inFootprint, hsub, BitVec.toNat_ofNat, decide_eq_true_eq]
  exact (Nat.mod_le _ _).trans_lt h

/-- A position inside the frame has its number below the pixel count. -/
theorem position_lt_total {row col width height : Nat} (hrow : row < height) (hcol : col < width) :
    row * width + col < width * height :=
  calc row * width + col < row * width + width := by omega
    _ = width * (row + 1) := by ring
    _ ≤ width * height := Nat.mul_le_mul_left width hrow

/-- Every byte of a pixel inside the frame lies in the footprint (R63, R73). -/
theorem pixel_byte_inFootprint {c : FrameCfg} {row col k : Nat}
    (htotal : c.total.toNat = c.width.toNat * c.height.toNat) (hrow : row < c.height.toNat)
    (hcol : col < c.width.toNat) (hk : k < c.bpp.toNat) :
    inFootprint c (pixAddr c row col + BitVec.ofNat 32 k) = true := by
  have hpos : row * c.width.toNat + col + 1 ≤ c.total.toNat := htotal ▸ position_lt_total hrow hcol
  rw [pixAddr_eq, BitVec.add_assoc, ← BitVec.ofNat_add]
  refine inFootprint_base_add c ?_
  calc c.bpp.toNat * (row * c.width.toNat + col) + k
      < c.bpp.toNat * (row * c.width.toNat + col + 1) := by rw [Nat.mul_succ]; omega
    _ ≤ c.bpp.toNat * c.total.toNat := Nat.mul_le_mul_left _ hpos

/-- Settles O44: a step writes at most the pixel under the cursor, in FILL, and that pixel lies inside the frame. -/
theorem writesStayInTheFootprint : Obligations.WritesStayInTheFootprint := by
  intro s t hinv hstep
  rcases step_mem_cases hstep with hm | ⟨hp, v, hm⟩
  · exact ⟨fun a _ => by rw [hm], fun _ => hm⟩
  · refine ⟨fun a ha => ?_, fun hidle => by rw [hp] at hidle; cases hidle⟩
    obtain ⟨htotal, hrow, hcol⟩ := cursor_in_frame hp hinv
    rw [hm]
    refine memRead_memWrite_other _ v a _ s.mem fun k hk hak => ?_
    rw [hak, pixel_byte_inFootprint htotal hrow hcol hk] at ha
    cases ha

/-! ### The canonical form of the keyed lists -/

theorem storageCanonical_iff (s : State) :
    storageCanonical s = true ↔
      Memory.wf s.mem = true ∧ keysRising s.pal = true ∧ keysRising s.lzw.table = true := by
  simp [storageCanonical, and_assoc]

theorem step_keeps_mem_wf {s t : State} (hs : Memory.wf s.mem = true) (h : step s = .next t) :
    Memory.wf t.mem = true := by
  rcases step_mem_cases h with hm | ⟨-, v, hm⟩ <;> rw [hm]
  · exact hs
  · exact Memory.wf_memWrite _ v _ s.mem hs

theorem engineMove_keysRising_table {s t : State} (hs : keysRising s.lzw.table = true)
    (h : engineMove s = .next t) : keysRising t.lzw.table = true := by
  obtain ⟨s1, hread, hend⟩ := engineMove_readThenEnd h
  exact hend.keysRising_table (hread.table hs)

/-- Settles O47: memory by what a step can write there; palette and table by who acts in the step. -/
theorem storageStaysCanonical : Obligations.StorageStaysCanonical := by
  intro s t hs h
  rw [storageCanonical_iff] at hs ⊢
  obtain ⟨hmem, hpal, htable⟩ := hs
  refine ⟨step_keeps_mem_wf hmem h, ?_⟩
  rcases step_cases_by_agent h with ⟨agenda, he⟩ | ⟨w, rest, -, he⟩ | ⟨rest, -, rfl⟩ | ⟨_, _, _, _, _, rfl⟩
  · exact ⟨by rw [(engineMove_engineFrame he).pal_eq]; exact hpal,
      engineMove_keysRising_table (s := { s with agenda := agenda }) htable he⟩
  · exact ⟨he.keysRising_pal hpal, by rw [he.lzw_eq]; exact htable⟩
  · exact ⟨rfl, rfl⟩
  · exact ⟨hpal, htable⟩

/-! ### The input -/

/-- Settles O54: the reading of an engine step takes bytes from the front of the input, its end takes none. -/
theorem inputIsTakenInOrder : Obligations.InputIsTakenInOrder := by
  intro s t h
  obtain ⟨s1, hread, hend⟩ := engineMove_readThenEnd h
  obtain ⟨hin, hcount⟩ := hend.input_eq
  obtain ⟨taken, htaken, hbytes⟩ := hread.bytes
  refine ⟨taken, by rw [hin, htaken], by rw [hcount, hbytes], fun hx hroot => ?_⟩
  have hsame := (hread.exhausted hx hroot).1
  rwa [hsame, List.self_eq_append_left] at htaken

end Sys2Proof.Machine
end

section
/-! A step that waits for input, the host's moves on the input, and the host's reads of frame memory. -/

namespace Sys2Proof.Machine

/-- The state `t` in which the frame of `s` has finished with INPUT_EOF, having taken no byte and written none (R156,
R272). -/
structure FinishedByEof (s t : State) : Prop where
  phase : t.phase = .idle
  cause : t.regs.cause = .inputEof
  done : t.regs.done = true
  input : t.input = s.input
  bytesIn : t.regs.bytesIn = s.regs.bytesIn
  mem : t.mem = s.mem

theorem needsByte_iff (s : State) :
    needsByte s = true ↔
      s.phase = .root ∨ (s.phase = .drain ∧ s.rd.exhausted = false)
        ∨ (decoding s = true ∧ s.lzw.result = .none ∧ s.lzw.stack = []
          ∧ s.rd.nbits.toNat < s.lzw.codeSize.toNat ∧ s.rd.exhausted = false) := by
  simp [needsByte, and_assoc, or_assoc]

theorem heldIndex_none {s : State} (hr : s.lzw.result = .none) (hs : s.lzw.stack = []) : heldIndex s = none := by
  simp [heldIndex, hr, hs]

/-- A step that needs a byte meets the end of an input with none left (R62, R156, R232, R245). -/
theorem engineStep_of_no_byte {s : State} (hin : s.input = []) (hneed : needsByte s = true) :
    ∃ t, engineStep s = .next t ∧ FinishedByEof s t := by
  rcases (needsByte_iff s).mp hneed with hp | ⟨hp, hx⟩ | ⟨hd, hresult, hstack, hbits, hx⟩
  · refine ⟨finish .inputEof s, ?_, rfl, rfl, rfl, rfl, rfl, rfl⟩
    rw [engineStep, fetch_root hp, fetchRoot, takeByte_nil hin]
  · refine ⟨finish .inputEof (discard s), ?_, rfl, rfl, rfl, rfl, rfl, rfl⟩
    rw [engineStep, fetch_drain hp, fetchDrain, if_neg (by simp [hx]), takeByte_nil (s := discard s) hin]
  · refine ⟨eofDone s, ?_, rfl, rfl, rfl, rfl, rfl, rfl⟩
    rw [engineStep, fetch_decoding hd, fetchIndex, heldIndex_none hresult hstack]
    simp only [fetchCode, if_neg (Nat.not_le.mpr hbits), hx, takeByte_nil hin]
    exact settle_eof s hd

theorem needsByte_busy {s : State} (h : needsByte s = true) : s.phase ≠ .idle := by
  intro hp
  simp [needsByte, decoding, hp] at h

theorem FinishedByEof.ranOutOfInput {s t : State} (h : FinishedByEof s t) (hbusy : s.phase ≠ .idle) :
    ranOutOfInput s t = true := by
  simp [Machine.ranOutOfInput, hbusy, h.phase, h.cause]

/-- A move whose step would meet the end of the input: it waits until `in_eof` rules out more bytes (R62, R312). -/
theorem engineMove_of_ranOut {s t : State} (h : engineStep s = .next t) (hout : ranOutOfInput s t = true) :
    engineMove s = .next (if s.inEof then t else s) := by
  cases he : s.inEof <;> simp [engineMove, h, hout, he]

theorem step_of_agenda_nil {s : State} (h : s.agenda = []) : step s = engineMove s := by
  rw [step, nextEvent, h]

/-- Settles O4: the step met the end of the input, so `in_eof` decides; each move of the host is one of the model's named
operations. -/
theorem stepWaitsForInput : Obligations.StepWaitsForInput := by
  refine ⟨fun s hagenda hin hneed => ?_, fun s rest => ?_⟩
  · obtain ⟨t, hstep, heof⟩ := engineStep_of_no_byte hin hneed
    rw [step_of_agenda_nil hagenda, engineMove_of_ranOut hstep (heof.ranOutOfInput (needsByte_busy hneed))]
    refine ⟨fun he => by simp [he], fun he => ⟨t, by simp [he], ?_⟩⟩
    exact ⟨heof.phase, heof.cause, heof.done, heof.input.trans hin, heof.bytesIn, heof.mem⟩
  · refine ⟨fun bytes h => ?_, fun h => ?_, fun n h => ?_, fun h hdone => ?_⟩ <;> rw [step_of_agenda_cons h]
    · rfl
    · rfl
    · rfl
    · exact if_pos hdone

/-! ### Host reads of frame memory -/

/-- Settles O6: the two clauses are the two branches of `readFrame`. -/
theorem hostReadsOfFrameMemory : Obligations.HostReadsOfFrameMemory := by
  intro s a rest h
  rw [step_of_agenda_cons h]
  refine ⟨fun hbusy hin => ?_, fun hfree => ?_⟩
  · rw [runMove, readFrame, if_pos ⟨hbusy, hin⟩]
  · have hnot : ¬(s.phase ≠ .idle ∧ inFootprint s.cfg a = true) := by
      rcases hfree with hp | ho
      · exact fun hc => hc.1 hp
      · simp [ho]
    rw [runMove, readFrame, if_neg hnot]
    rfl

end Sys2Proof.Machine
end

section
/-! The bit buffer as a sequence of bits: a byte appended, a code taken. -/

namespace Sys2Proof.Machine

theorem readerBounded_iff (r : Reader) :
    readerBounded r = true ↔ r.nbits.toNat ≤ 2051 ∧ r.acc.toNat < 2 ^ r.nbits.toNat := by
  simp [readerBounded]

/-- No bit of a bounded buffer is set at or above `nbits`. -/
theorem acc_getLsbD_above {r : Reader} (h : readerBounded r = true) {j : Nat} (hj : r.nbits.toNat ≤ j) :
    r.acc.getLsbD j = false := by
  have hlt := ((readerBounded_iff r).mp h).2
  exact Nat.testBit_lt_two_pow (hlt.trans_le (Nat.pow_le_pow_right (by decide) hj))

/-! ### Appending a byte (R153) -/

theorem appendByte_nbits {r : Reader} (b : Byte) (h : r.nbits.toNat + 8 ≤ 2051) :
    (appendByte r b).nbits.toNat = r.nbits.toNat + 8 := by
  have hsum : (r.nbits + 8).toNat = (r.nbits.toNat + 8) % 4096 := BitVec.toNat_add r.nbits 8
  rw [appendByte, hsum]
  omega

/-- Bit `j` of the buffer after a byte is appended: an old bit, or a bit of the byte `nbits` places up. -/
theorem appendByte_getLsbD (r : Reader) (b : Byte) (j : Nat) :
    (appendByte r b).acc.getLsbD j =
      (r.acc.getLsbD j
        || (decide (j < 2051) && !decide (j < r.nbits.toNat) && b.getLsbD (j - r.nbits.toNat))) := by
  by_cases hj : j < 2051
  · have hsub : j - r.nbits.toNat < 2051 := by omega
    simp only [appendByte, BitVec.getLsbD_or, BitVec.getLsbD_shiftLeft, BitVec.getLsbD_setWidth, hsub, decide_true,
      Bool.true_and]
  · simp [appendByte, hj]

theorem appendByte_keeps_older (r : Reader) (b : Byte) {j : Nat} (hj : j < r.nbits.toNat) :
    (appendByte r b).acc.getLsbD j = r.acc.getLsbD j := by
  simp [appendByte_getLsbD, hj]

theorem appendByte_new_bit {r : Reader} (b : Byte) (hr : readerBounded r = true) (h : r.nbits.toNat + 8 ≤ 2051)
    {j : Nat} (hj : j < 8) : (appendByte r b).acc.getLsbD (r.nbits.toNat + j) = b.getLsbD j := by
  have hin : r.nbits.toNat + j < 2051 := by omega
  rw [appendByte_getLsbD, acc_getLsbD_above hr (Nat.le_add_right _ j)]
  simp [hin]

theorem appendByte_bounded {r : Reader} (b : Byte) (hr : readerBounded r = true) (h : r.nbits.toNat + 8 ≤ 2051) :
    readerBounded (appendByte r b) = true := by
  rw [readerBounded_iff, appendByte_nbits b h]
  refine ⟨h, ?_⟩
  have hclear : ∀ j, r.nbits.toNat + 8 ≤ j → (appendByte r b).acc.toNat.testBit j = false := fun j hj => by
    have hb : b.getLsbD (j - r.nbits.toNat) = false := BitVec.getLsbD_of_ge b _ (by omega)
    have hbit := appendByte_getLsbD r b j
    rw [acc_getLsbD_above hr (by omega), hb] at hbit
    simpa only [BitVec.testBit_toNat, Bool.and_false, Bool.or_false] using hbit
  exact Nat.lt_pow_two_of_testBit _ hclear

/-! ### Taking a code (R65, R153) -/

theorem takeCode_code_getLsbD (r : Reader) {w : Nat} (hw : w ≤ 12) (j : Nat) :
    (takeCode w r).1.getLsbD j = (decide (j < w) && r.acc.getLsbD j) := by
  rw [takeCode, BitVec.getLsbD_ofNat, Nat.testBit_mod_two_pow, BitVec.testBit_toNat]
  by_cases hj : j < w
  · have hj12 : j < 12 := by omega
    simp only [hj12, decide_true, Bool.true_and]
  · simp only [hj, decide_false, Bool.false_and, Bool.and_false]

theorem takeCode_nbits {r : Reader} {w : Nat} (hw : w ≤ 12) (h : w ≤ r.nbits.toNat) :
    (takeCode w r).2.nbits.toNat = r.nbits.toNat - w := by
  have hlt := r.nbits.isLt
  simp only [takeCode, BitVec.toNat_sub, BitVec.toNat_ofNat]
  omega

theorem takeCode_bounded {r : Reader} {w : Nat} (hr : readerBounded r = true) (hw : w ≤ 12)
    (h : w ≤ r.nbits.toNat) : readerBounded (takeCode w r).2 = true := by
  obtain ⟨hcap, hacc⟩ := (readerBounded_iff r).mp hr
  rw [readerBounded_iff, takeCode_nbits hw h]
  refine ⟨by omega, ?_⟩
  simp only [takeCode, BitVec.toNat_ushiftRight, Nat.shiftRight_eq_div_pow]
  rw [Nat.div_lt_iff_lt_mul (Nat.two_pow_pos w), ← pow_add, Nat.sub_add_cancel h]
  exact hacc

theorem takeCode_rest_getLsbD (r : Reader) (w j : Nat) :
    (takeCode w r).2.acc.getLsbD j = r.acc.getLsbD (j + w) := by
  rw [takeCode, BitVec.getLsbD_ushiftRight, Nat.add_comm]

/-- Settles O38: a byte by `appendByte_getLsbD`, a code by the bits of a remainder and of a right shift. -/
theorem codesAreTheOldestBits : Obligations.CodesAreTheOldestBits :=
  ⟨fun r b hr h =>
      ⟨appendByte_nbits b h, appendByte_bounded b hr h, fun _ => appendByte_keeps_older r b,
        fun _ => appendByte_new_bit b hr h⟩,
    fun r _ hr hw h =>
      ⟨takeCode_code_getLsbD r hw, takeCode_nbits hw h, takeCode_bounded hr hw h, takeCode_rest_getLsbD r _⟩⟩

end Sys2Proof.Machine
end

section
/-! The decoder against the encoder on host operation words: CTRL writes, register indices, the parts of a word. -/

namespace Sys2Proof

/-- Token `t` encodes instruction `i`, and `i` meets its row's condition, in decoder state `k`. -/
def Instr.StandsFor (k : CodeContext) (i : Instr) (t : Token) : Prop :=
  i.wf k = true ∧ encode k i = t

/-! ### CTRL writes (R89) -/

theorem decodeCtrl_abort (lo : BitVec 2) {data : Word} (h1 : data.getLsbD 1 = true) :
    decodeCtrl lo data = .wrCtrlAbort lo data :=
  if_pos h1

theorem decodeCtrl_of_no_abort (lo : BitVec 2) {data : Word} (h1 : data.getLsbD 1 = false) :
    decodeCtrl lo data = if data.getLsbD 0 then .wrCtrlStart lo data else .wrCtrlNone lo data :=
  if_neg (ne_true_of_eq_false h1)

theorem decodeCtrl_start_alone (lo : BitVec 2) {data : Word} (h1 : data.getLsbD 1 = false)
    (h0 : data.getLsbD 0 = true) : decodeCtrl lo data = .wrCtrlStart lo data := by
  rw [decodeCtrl_of_no_abort lo h1, if_pos h0]

theorem decodeCtrl_none (lo : BitVec 2) {data : Word} (h1 : data.getLsbD 1 = false)
    (h0 : data.getLsbD 0 = false) : decodeCtrl lo data = .wrCtrlNone lo data := by
  rw [decodeCtrl_of_no_abort lo h1, if_neg (ne_true_of_eq_false h0)]

/-- The meaning of the ABORT row, by bit 0 of its data (R89). -/
theorem Machine.exec_wrCtrlAbort (lo : BitVec 2) (data : Word) (s : Machine.State) :
    Machine.exec (.wrCtrlAbort lo data) s =
      .next (if data.getLsbD 0 then Machine.startFrame (Machine.abortFrame s) else Machine.abortFrame s) := rfl

/-- Settles O17: bits 1:0 decide the row, and bit 0 whether START follows an ABORT. -/
theorem controlWritesActInOrder : Obligations.ControlWritesActInOrder := by
  intro s lo data
  refine ⟨fun h1 h0 => ⟨decodeCtrl_none lo h1 h0, rfl⟩, fun h1 h0 => ⟨decodeCtrl_start_alone lo h1 h0, rfl⟩,
    fun h1 h0 => ⟨decodeCtrl_abort lo h1, ?_⟩, fun h1 h0 => ⟨decodeCtrl_abort lo h1, ?_⟩⟩
  · rw [Machine.exec_wrCtrlAbort, if_neg (ne_true_of_eq_false h0)]
  · rw [Machine.exec_wrCtrlAbort, if_pos h0]

/-! ### Register indices (R34, R111, R112) -/

theorem index_eq_ofNat {idx : BitVec 6} {n : Nat} (h : idx.toNat = n) : idx = BitVec.ofNat 6 n := by
  rw [← h, BitVec.ofNat_toNat, BitVec.setWidth_eq]

/-- The words 0x38 and 0x3C of the window. -/
theorem index38_bounds : ∀ sel : BitVec 1, 14 ≤ (7#5 ++ sel).toNat ∧ (7#5 ++ sel).toNat < 16 := by decide

/-- The words 0x40 to 0x7C. -/
theorem index40_bounds : ∀ sel : BitVec 4, 16 ≤ (1#2 ++ sel).toNat ∧ (1#2 ++ sel).toNat < 32 := by decide

/-- The words 0x80 to 0xFC. -/
theorem index80_bound : ∀ sel : BitVec 5, 32 ≤ (1#1 ++ sel).toNat := by decide

theorem index38_append : ∀ idx : BitVec 6, 14 ≤ idx.toNat → idx.toNat < 16 → 7#5 ++ idx.extractLsb' 0 1 = idx := by
  decide

theorem index40_append : ∀ idx : BitVec 6, 16 ≤ idx.toNat → idx.toNat < 32 → 1#2 ++ idx.extractLsb' 0 4 = idx := by
  decide

theorem index80_append : ∀ idx : BitVec 6, 32 ≤ idx.toNat → 1#1 ++ idx.extractLsb' 0 5 = idx := by decide

/-- The row of a reserved index from 0x38 on, given the row of each range: `decodeRead` and `decodeWrite` split it alike. -/
def reservedRow (r38 : BitVec 1 → Instr) (r40 : BitVec 4 → Instr) (r80 : BitVec 5 → Instr) (idx : BitVec 6) : Instr :=
  if idx.toNat < 16 then r38 (idx.extractLsb' 0 1)
  else if idx.toNat < 32 then r40 (idx.extractLsb' 0 4)
  else r80 (idx.extractLsb' 0 5)

theorem decodeRead_reserved {idx : BitVec 6} (lo : BitVec 2) (data : Word) (h : 14 ≤ idx.toNat) :
    decodeRead idx lo data =
      reservedRow (.rdReserved38 · lo data) (.rdReserved40 · lo data) (.rdReserved80 · lo data) idx := by
  unfold decodeRead
  split
  case h_15 => rfl
  all_goals omega

theorem decodeWrite_reserved {idx : BitVec 6} (lo : BitVec 2) (data : Word) (h : 14 ≤ idx.toNat) :
    decodeWrite idx lo data =
      reservedRow (.wrReserved38 · lo data) (.wrReserved40 · lo data) (.wrReserved80 · lo data) idx := by
  unfold decodeWrite
  split
  case h_15 => rfl
  all_goals omega

section
variable (r38 : BitVec 1 → Instr) (r40 : BitVec 4 → Instr) (r80 : BitVec 5 → Instr)

theorem reservedRow_38 (sel : BitVec 1) : reservedRow r38 r40 r80 (7#5 ++ sel) = r38 sel := by
  obtain ⟨-, hhigh⟩ := index38_bounds sel
  rw [reservedRow, if_pos hhigh, BitVec.extractLsb'_append_eq_right]

theorem reservedRow_40 (sel : BitVec 4) : reservedRow r38 r40 r80 (1#2 ++ sel) = r40 sel := by
  obtain ⟨hlow, hhigh⟩ := index40_bounds sel
  rw [reservedRow, if_neg (by omega), if_pos hhigh, BitVec.extractLsb'_append_eq_right]

theorem reservedRow_80 (sel : BitVec 5) : reservedRow r38 r40 r80 (1#1 ++ sel) = r80 sel := by
  have hlow := index80_bound sel
  rw [reservedRow, if_neg (by omega), if_neg (by omega), BitVec.extractLsb'_append_eq_right]

/-- Rows that each stand for the word of their own index: the row of any reserved index does too. -/
theorem reservedRow_standsFor {k : CodeContext} {token : BitVec 6 → Token}
    (h38 : ∀ sel, (r38 sel).StandsFor k (token (7#5 ++ sel))) (h40 : ∀ sel, (r40 sel).StandsFor k (token (1#2 ++ sel)))
    (h80 : ∀ sel, (r80 sel).StandsFor k (token (1#1 ++ sel))) {idx : BitVec 6} (h : 14 ≤ idx.toNat) :
    (reservedRow r38 r40 r80 idx).StandsFor k (token idx) := by
  unfold reservedRow
  split_ifs with h16 h32
  · simpa only [index38_append idx h h16] using h38 (idx.extractLsb' 0 1)
  · simpa only [index40_append idx (by omega) h32] using h40 (idx.extractLsb' 0 4)
  · simpa only [index80_append idx (by omega)] using h80 (idx.extractLsb' 0 5)

end

/-! ### Host operation words (R88) -/

theorem hostWord_write (write : BitVec 1) (idx : BitVec 6) (lo : BitVec 2) (data : Word) :
    (hostWord write idx lo data).extractLsb' 40 1 = write := by
  show (((write ++ idx) ++ lo) ++ data).extractLsb' 40 1 = write
  rw [BitVec.extractLsb'_append_eq_of_le (by decide), BitVec.extractLsb'_append_eq_of_le (by decide)]
  exact BitVec.extractLsb'_append_eq_left

theorem hostWord_index (write : BitVec 1) (idx : BitVec 6) (lo : BitVec 2) (data : Word) :
    (hostWord write idx lo data).extractLsb' 34 6 = idx := by
  show (((write ++ idx) ++ lo) ++ data).extractLsb' 34 6 = idx
  rw [BitVec.extractLsb'_append_eq_of_le (by decide), BitVec.extractLsb'_append_eq_of_le (by decide)]
  exact BitVec.extractLsb'_append_eq_right

theorem hostWord_lo (write : BitVec 1) (idx : BitVec 6) (lo : BitVec 2) (data : Word) :
    (hostWord write idx lo data).extractLsb' 32 2 = lo := by
  show (((write ++ idx) ++ lo) ++ data).extractLsb' 32 2 = lo
  rw [BitVec.extractLsb'_append_eq_of_le (by decide)]
  exact BitVec.extractLsb'_append_eq_right

theorem hostWord_data (write : BitVec 1) (idx : BitVec 6) (lo : BitVec 2) (data : Word) :
    (hostWord write idx lo data).extractLsb' 0 32 = data :=
  BitVec.extractLsb'_append_eq_right

/-- A host word is its four parts. -/
theorem hostWord_parts (w : HostWord) :
    hostWord (w.extractLsb' 40 1) (w.extractLsb' 34 6) (w.extractLsb' 32 2) (w.extractLsb' 0 32) = w := by
  unfold hostWord
  rw [BitVec.extractLsb'_append_extractLsb'_eq_extractLsb' (by decide),
    BitVec.extractLsb'_append_extractLsb'_eq_extractLsb' (by decide),
    BitVec.extractLsb'_append_extractLsb'_eq_extractLsb' (by decide)]
  exact BitVec.extractLsb'_eq_self

theorem getLsbD_eq_write (w : HostWord) : w.getLsbD 40 = (w.extractLsb' 40 1).getLsbD 0 := by
  simp

theorem decodeHost_read (idx : BitVec 6) (lo : BitVec 2) (data : Word) :
    decodeHost (hostWord 0 idx lo data) = decodeRead idx lo data := by
  rw [decodeHost, getLsbD_eq_write, hostWord_write, hostWord_index, hostWord_lo, hostWord_data]
  rfl

theorem decodeHost_write (idx : BitVec 6) (lo : BitVec 2) (data : Word) :
    decodeHost (hostWord 1 idx lo data) = decodeWrite idx lo data := by
  rw [decodeHost, getLsbD_eq_write, hostWord_write, hostWord_index, hostWord_lo, hostWord_data]
  rfl

theorem decodeCtrl_standsFor (k : CodeContext) (lo : BitVec 2) (data : Word) :
    (decodeCtrl lo data).StandsFor k (.host (hostWord 1 1 lo data)) := by
  unfold decodeCtrl
  split_ifs with h1 h0
  · exact ⟨h1, rfl⟩
  · exact ⟨by rw [Instr.wf, h0, Bool.eq_false_iff.mpr h1]; rfl, rfl⟩
  · exact ⟨by rw [Instr.wf, Bool.eq_false_iff.mpr h0, Bool.eq_false_iff.mpr h1]; rfl, rfl⟩

theorem decodeRead_standsFor (k : CodeContext) (idx : BitVec 6) (lo : BitVec 2) (data : Word) :
    (decodeRead idx lo data).StandsFor k (.host (hostWord 0 idx lo data)) := by
  by_cases hreserved : 14 ≤ idx.toNat
  · rw [decodeRead_reserved lo data hreserved]
    exact reservedRow_standsFor _ _ _ (token := fun x => .host (hostWord 0 x lo data)) (fun _ => ⟨rfl, rfl⟩)
      (fun _ => ⟨rfl, rfl⟩) (fun _ => ⟨rfl, rfl⟩) hreserved
  · unfold decodeRead
    split
    case h_15 => simp only [imp_false] at *; omega
    all_goals
      rename_i h
      exact ⟨rfl, by rw [index_eq_ofNat h]; rfl⟩

theorem decodeWrite_standsFor (k : CodeContext) (idx : BitVec 6) (lo : BitVec 2) (data : Word) :
    (decodeWrite idx lo data).StandsFor k (.host (hostWord 1 idx lo data)) := by
  by_cases hreserved : 14 ≤ idx.toNat
  · rw [decodeWrite_reserved lo data hreserved]
    exact reservedRow_standsFor _ _ _ (token := fun x => .host (hostWord 1 x lo data)) (fun _ => ⟨rfl, rfl⟩)
      (fun _ => ⟨rfl, rfl⟩) (fun _ => ⟨rfl, rfl⟩) hreserved
  · unfold decodeWrite
    split
    case h_15 => simp only [imp_false] at *; omega
    case h_2 h => rw [index_eq_ofNat h]; exact decodeCtrl_standsFor k lo data
    all_goals
      rename_i h
      exact ⟨rfl, by rw [index_eq_ofNat h]; rfl⟩

theorem decodeHost_standsFor (k : CodeContext) (w : HostWord) : (decodeHost w).StandsFor k (.host w) := by
  rw [← hostWord_parts w]
  have hbit : w.extractLsb' 40 1 = 0 ∨ w.extractLsb' 40 1 = 1 := BitVec.eq_zero_or_eq_one _
  rcases hbit with hw | hw <;> rw [hw]
  · rw [decodeHost_read]
    exact decodeRead_standsFor k _ _ _
  · rw [decodeHost_write]
    exact decodeWrite_standsFor k _ _ _

/-- The decoder reads a well-formed host operation back from its word, in any decoder state. -/
theorem decode_encode_hostOp (k : CodeContext) {i : Instr} (hi : Machine.isHostOp i = true) (h : i.wf k = true) :
    decode k (encode k i) = i := by
  cases i with
  | clear | endCode | first | badFirst | literal | defined | kwkwk | subTerminator | subData | rootValid | rootInvalid =>
    cases hi
  | rdReserved38 sel lo data =>
    rw [encode, decode, decodeHost_read, decodeRead_reserved lo data (index38_bounds sel).1, reservedRow_38]
  | rdReserved40 sel lo data =>
    have hlow := (index40_bounds sel).1
    rw [encode, decode, decodeHost_read, decodeRead_reserved lo data (by omega), reservedRow_40]
  | rdReserved80 sel lo data =>
    have hlow := index80_bound sel
    rw [encode, decode, decodeHost_read, decodeRead_reserved lo data (by omega), reservedRow_80]
  | wrReserved38 sel lo data =>
    rw [encode, decode, decodeHost_write, decodeWrite_reserved lo data (index38_bounds sel).1, reservedRow_38]
  | wrReserved40 sel lo data =>
    have hlow := (index40_bounds sel).1
    rw [encode, decode, decodeHost_write, decodeWrite_reserved lo data (by omega), reservedRow_40]
  | wrReserved80 sel lo data =>
    have hlow := index80_bound sel
    rw [encode, decode, decodeHost_write, decodeWrite_reserved lo data (by omega), reservedRow_80]
  | wrCtrlNone lo data =>
    simp only [Instr.wf, Bool.and_eq_true, Bool.not_eq_true'] at h
    obtain ⟨h0, h1⟩ := h
    exact (decodeHost_write 1 lo data).trans (decodeCtrl_none lo h1 h0)
  | wrCtrlAbort lo data => exact (decodeHost_write 1 lo data).trans (decodeCtrl_abort lo h)
  | wrCtrlStart lo data =>
    simp only [Instr.wf, Bool.and_eq_true, Bool.not_eq_true'] at h
    obtain ⟨h0, h1⟩ := h
    exact (decodeHost_write 1 lo data).trans (decodeCtrl_start_alone lo h1 h0)
  | rdId lo data | rdCtrl lo data | rdStatus lo data | rdIrqEn lo data | rdFrameW lo data | rdFrameH lo data
  | rdFrameCfg lo data | rdFbBase lo data | rdPalIndex lo data | rdPalData lo data | rdPixCount lo data
  | rdLzwState lo data | rdBytesIn lo data | rdReserved34 lo data =>
    exact decodeHost_read _ lo data
  | wrId lo data | wrStatus lo data | wrIrqEn lo data | wrFrameW lo data | wrFrameH lo data | wrFrameCfg lo data
  | wrFbBase lo data | wrPalIndex lo data | wrPalData lo data | wrPixCount lo data | wrLzwState lo data
  | wrBytesIn lo data | wrReserved34 lo data =>
    exact decodeHost_write _ lo data

end Sys2Proof
end

section
/-! The decoder against the encoder on the tokens of the stream, and with the host words the statements about all tokens. -/

namespace Sys2Proof

/-! ### Bytes of the stream (R81, R82) -/

theorem decodeSub_standsFor (k : CodeContext) (n : Byte) : (decodeSub n).StandsFor k (.sub n) := by
  unfold decodeSub
  split_ifs with h
  · exact ⟨rfl, by rw [h]; rfl⟩
  · exact ⟨decide_eq_true h, rfl⟩

theorem rootInvalid_wf_iff (k : CodeContext) (r : Byte) :
    (Instr.rootInvalid r).wf k = true ↔ ¬(Config.rootMin ≤ r.toNat ∧ r.toNat ≤ Config.rootMax) := by
  simp only [Instr.wf, Bool.or_eq_true, decide_eq_true_eq]
  omega

theorem rootValid_wf_iff (k : CodeContext) (r : Byte) :
    (Instr.rootValid r).wf k = true ↔ Config.rootMin ≤ r.toNat ∧ r.toNat ≤ Config.rootMax := by
  simp only [Instr.wf, Bool.and_eq_true, decide_eq_true_eq]

theorem decodeRoot_standsFor (k : CodeContext) (r : Byte) : (decodeRoot r).StandsFor k (.root r) := by
  unfold decodeRoot
  split_ifs with h
  · exact ⟨(rootValid_wf_iff k r).mpr h, rfl⟩
  · exact ⟨(rootInvalid_wf_iff k r).mpr h, rfl⟩

/-- Settles O8: a host word is its parts, and each part reads back; the bytes by the decoder's own branches. -/
theorem everyWordAndByteHasAMeaning : Obligations.EveryWordAndByteHasAMeaning :=
  fun k w b => ⟨decodeHost_standsFor k w, decodeSub_standsFor k b, decodeRoot_standsFor k b, rfl, rfl⟩

/-! ### Code classes (R85, R86) -/

/-- The condition that R85's table gives each class of code `c`. -/
def ClassCondition (k : CodeContext) (c : Code) : CodeClass → Prop
  | .clear => c.toNat = k.clearCode.toNat
  | .endOfImage => c.toNat = k.endCode.toNat
  | .first => k.fresh = true ∧ c.toNat < k.clearCode.toNat
  | .badFirst => k.fresh = true ∧ k.clearCode.toNat + 2 ≤ c.toNat
  | .literal => k.fresh = false ∧ c.toNat < k.clearCode.toNat
  | .defined => k.fresh = false ∧ k.clearCode.toNat + 2 ≤ c.toNat ∧ c.toNat < k.maxCode.toNat
  | .kwkwk => k.fresh = false ∧ k.maxCode.toNat ≤ c.toNat

/-- The row of the opcode table for code `c` of a class. -/
def CodeClass.row (c : Code) : CodeClass → Instr
  | .clear => .clear
  | .endOfImage => .endCode
  | .first => .first c
  | .badFirst => .badFirst c
  | .literal => .literal c
  | .defined => .defined c
  | .kwkwk => .kwkwk c

theorem decodeCode_eq_row (k : CodeContext) (c : Code) : decodeCode k c = (classify k c).row c := by
  unfold decodeCode
  cases classify k c <;> rfl

/-- The part of a legal decoder state on which R86's order of tests rests. -/
theorem CodeContext.legal_bounds {k : CodeContext} (h : k.legal = true) :
    k.endCode.toNat = k.clearCode.toNat + 1 ∧ k.clearCode.toNat + 2 ≤ k.maxCode.toNat ∧ k.maxCode.toNat ≤ 4096 := by
  simp only [CodeContext.legal, Bool.and_eq_true, decide_eq_true_eq] at h
  obtain ⟨⟨⟨⟨-, hend⟩, hlow⟩, hhigh⟩, -⟩ := h
  exact ⟨hend, hlow, hhigh⟩

/-- The class that the tests of R86 find is one whose condition holds: the classes are exhaustive. -/
theorem classCondition_classify {k : CodeContext} (hk : k.legal = true) (c : Code) :
    ClassCondition k c (classify k c) := by
  obtain ⟨hend, hlow, -⟩ := CodeContext.legal_bounds hk
  unfold classify
  split_ifs with hclear hendCode hfresh hlit hlit hdef
  · exact hclear
  · exact hendCode
  · exact ⟨hfresh, hlit⟩
  · exact ⟨hfresh, by omega⟩
  · exact ⟨Bool.eq_false_iff.mpr hfresh, hlit⟩
  · exact ⟨Bool.eq_false_iff.mpr hfresh, by omega, hdef⟩
  · exact ⟨Bool.eq_false_iff.mpr hfresh, by omega⟩

/-- No other class's condition holds: the classes are disjoint. -/
theorem classify_of_classCondition {k : CodeContext} (hk : k.legal = true) {c : Code} {x : CodeClass}
    (h : ClassCondition k c x) : classify k c = x := by
  obtain ⟨hend, hlow, -⟩ := CodeContext.legal_bounds hk
  unfold classify
  cases x with
  | clear => exact if_pos h
  | endOfImage =>
    change c.toNat = k.endCode.toNat at h
    rw [if_neg (by omega), if_pos h]
  | first =>
    obtain ⟨hfresh, hlit⟩ := h
    rw [if_neg (by omega), if_neg (by omega), if_pos hfresh, if_pos hlit]
  | badFirst =>
    obtain ⟨hfresh, habove⟩ := h
    rw [if_neg (by omega), if_neg (by omega), if_pos hfresh, if_neg (by omega)]
  | literal =>
    obtain ⟨hfresh, hlit⟩ := h
    rw [if_neg (by omega), if_neg (by omega), if_neg (by simp [hfresh]), if_pos hlit]
  | defined =>
    obtain ⟨hfresh, habove, hdef⟩ := h
    rw [if_neg (by omega), if_neg (by omega), if_neg (by simp [hfresh]), if_neg (by omega), if_pos hdef]
  | kwkwk =>
    obtain ⟨hfresh, habove⟩ := h
    rw [if_neg (by omega), if_neg (by omega), if_neg (by simp [hfresh]), if_neg (by omega), if_neg (by omega)]

theorem decodeCode_of_classCondition {k : CodeContext} (hk : k.legal = true) {c : Code} (x : CodeClass)
    (h : ClassCondition k c x) : decodeCode k c = x.row c := by
  rw [decodeCode_eq_row, classify_of_classCondition hk h]

/-- A decoder constant below 4096 keeps its value as a code. -/
theorem setWidth_code_toNat {n : BitVec 13} (h : n.toNat < 4096) : (n.setWidth 12 : Code).toNat = n.toNat := by
  rw [BitVec.toNat_setWidth, Nat.mod_eq_of_lt h]

theorem setWidth_eq_code {n : BitVec 13} {c : Code} (h : c.toNat = n.toNat) : n.setWidth 12 = c := by
  apply BitVec.eq_of_toNat_eq
  rw [setWidth_code_toNat (h ▸ c.isLt), h]

/-- Row by row, R85's class condition is the row's condition. -/
theorem CodeClass.row_standsFor {k : CodeContext} {c : Code} {x : CodeClass} (h : ClassCondition k c x) :
    (x.row c).StandsFor k (.code c) := by
  cases x with
  | clear => exact ⟨rfl, congrArg Token.code (setWidth_eq_code h)⟩
  | endOfImage => exact ⟨rfl, congrArg Token.code (setWidth_eq_code h)⟩
  | first | badFirst | literal | kwkwk =>
    obtain ⟨hfresh, hrange⟩ := h
    exact ⟨by simp [CodeClass.row, Instr.wf, hfresh, hrange], rfl⟩
  | defined =>
    obtain ⟨hfresh, habove, hdef⟩ := h
    exact ⟨by simp [CodeClass.row, Instr.wf, hfresh, habove, hdef], rfl⟩

theorem decodeCode_standsFor {k : CodeContext} (hk : k.legal = true) (c : Code) :
    (decodeCode k c).StandsFor k (.code c) := by
  rw [decodeCode_eq_row]
  exact CodeClass.row_standsFor (classCondition_classify hk c)

/-- Settles O7: each row's condition is the test that the decoder makes on the row's token. -/
theorem decodeOfEncodeIsTheInstruction : Obligations.DecodeOfEncodeIsTheInstruction := by
  intro k i hk h
  obtain ⟨hend, hlow, hhigh⟩ := CodeContext.legal_bounds hk
  cases i with
  | clear => exact decodeCode_of_classCondition hk .clear (setWidth_code_toNat (by omega))
  | endCode => exact decodeCode_of_classCondition hk .endOfImage (setWidth_code_toNat (by omega))
  | first c =>
    exact decodeCode_of_classCondition hk .first (by simpa [ClassCondition, Instr.wf] using h)
  | badFirst c => exact decodeCode_of_classCondition hk .badFirst (by simpa [ClassCondition, Instr.wf] using h)
  | literal c => exact decodeCode_of_classCondition hk .literal (by simpa [ClassCondition, Instr.wf] using h)
  | defined c => exact decodeCode_of_classCondition hk .defined (by simpa [ClassCondition, Instr.wf, and_assoc] using h)
  | kwkwk c => exact decodeCode_of_classCondition hk .kwkwk (by simpa [ClassCondition, Instr.wf] using h)
  | subTerminator => rfl
  | subData n => exact if_neg (of_decide_eq_true h)
  | rootValid r => exact if_pos ((rootValid_wf_iff k r).mp h)
  | rootInvalid r => exact if_neg ((rootInvalid_wf_iff k r).mp h)
  | _ => exact decode_encode_hostOp k rfl h

/-- Settles O9: the class found holds by `classCondition_classify`; that it is the only one follows from O7. -/
theorem codeClassesPartitionTheCodes : Obligations.CodeClassesPartitionTheCodes := by
  intro k c hk
  obtain ⟨hwf, henc⟩ := decodeCode_standsFor hk c
  refine ⟨hwf, henc, fun i hi hic => ?_⟩
  rw [← hic, decodeOfEncodeIsTheInstruction k i hk hi]

/-- Settles O10, each word by evaluating the decoder. -/
theorem sampleWordsDecode : Obligations.SampleWordsDecode := by
  unfold Obligations.SampleWordsDecode
  decide

end Sys2Proof
end

section
/-! What a register read replies: the word at each place of the window, and the fields of `STATUS` and `LZW_STATE`. -/

namespace Sys2Proof.Machine

/-! ### The addressed word (R111) -/

/-- The words from 0x38 on are reserved and read 0 (R34). -/
theorem registerWord_reserved {idx : BitVec 6} (h : 14 ≤ idx.toNat) (s : State) : registerWord idx s = 0#32 := by
  have hne (n : BitVec 6) (hn : n.toNat < 14) : idx ≠ n := by
    rintro rfl
    omega
  simp [registerWord, hne]

/-- Each of the reserved rows from 0x38 on replies 0. -/
theorem exec_reservedRow_read (idx : BitVec 6) (lo : BitVec 2) (data : Word) (s : State) :
    exec (reservedRow (.rdReserved38 · lo data) (.rdReserved40 · lo data) (.rdReserved80 · lo data) idx) s =
      .next { s with rdata := 0#32 } := by
  unfold reservedRow
  split_ifs <;> rfl

/-- A read replies the word at its place of the window, and changes nothing else. -/
theorem exec_decodeRead (idx : BitVec 6) (lo : BitVec 2) (data : Word) (s : State) :
    exec (decodeRead idx lo data) s = .next { s with rdata := registerWord idx s } := by
  by_cases hreserved : 14 ≤ idx.toNat
  · rw [decodeRead_reserved lo data hreserved, exec_reservedRow_read, registerWord_reserved hreserved]
  · unfold decodeRead
    split
    case h_15 => simp only [imp_false] at *; omega
    all_goals
      rename_i h
      rw [index_eq_ofNat h]
      rfl

/-- Settles O11: bit 40 is `W`, and a read word decodes to the row of its index. -/
theorem readsReplyTheAddressedWord : Obligations.ReadsReplyTheAddressedWord := by
  intro s w hw
  rw [decodeHost, if_neg (ne_true_of_eq_false hw), exec_decodeRead]

/-! ### The packed words (R32, R126) -/

theorem flagBit_getLsbD {w : Nat} (v : BitVec w) (i : Nat) : flagBit (v.getLsbD i) = v.extractLsb' i 1 := by
  apply BitVec.eq_of_getLsbD_eq
  intro j hj
  obtain rfl : j = 0 := by omega
  simp [flagBit]

theorem flagBit_inj {a b : Bool} (h : flagBit a = flagBit b) : a = b := by
  simpa [flagBit] using congrArg (·.getLsbD 0) h

theorem getLsbD_of_extract_flag {w i : Nat} {v : BitVec w} {b : Bool} (h : v.extractLsb' i 1 = flagBit b) :
    v.getLsbD i = b :=
  flagBit_inj ((flagBit_getLsbD v i).trans h)

/-- The fields of a word packed as `STATUS` is, each by the bits it lies on. -/
theorem status_packing {v : BitVec (15 + 1 + 4 + 4 + 1 + 3 + 1 + 1 + 1 + 1)} {errBusy noEnd extra done busy : BitVec 1}
    {cause : BitVec 4} {phase : BitVec 3}
    (hv : v = 0#15 ++ errBusy ++ 0#4 ++ cause ++ 0#1 ++ phase ++ noEnd ++ extra ++ done ++ busy) :
    v.extractLsb' 0 1 = busy ∧ v.extractLsb' 1 1 = done ∧ v.extractLsb' 2 1 = extra ∧ v.extractLsb' 3 1 = noEnd
      ∧ v.extractLsb' 4 3 = phase ∧ v.extractLsb' 7 1 = 0#1 ∧ v.extractLsb' 8 4 = cause ∧ v.extractLsb' 12 4 = 0#4
      ∧ v.extractLsb' 16 1 = errBusy ∧ v.extractLsb' 17 15 = 0#15 := by
  subst hv
  refine ⟨?_, ?_, ?_, ?_, ?_, ?_, ?_, ?_, ?_, ?reserved⟩
  all_goals repeat rw [BitVec.extractLsb'_append_eq_of_le (by omega)]
  case reserved => exact BitVec.extractLsb'_eq_self
  all_goals exact BitVec.extractLsb'_append_eq_right

/-- The fields of a word packed as `LZW_STATE` is, each by the bits it lies on. -/
theorem lzwState_packing {v : BitVec (8 + 6 + 1 + 13 + 4)} {rootByte : Byte} {fresh : BitVec 1} {maxCode : BitVec 13}
    {codeSize : BitVec 4} (hv : v = rootByte ++ 0#6 ++ fresh ++ maxCode ++ codeSize) :
    v.extractLsb' 0 4 = codeSize ∧ v.extractLsb' 4 13 = maxCode ∧ v.extractLsb' 17 1 = fresh
      ∧ v.extractLsb' 18 6 = 0#6 ∧ v.extractLsb' 24 8 = rootByte := by
  subst hv
  refine ⟨?_, ?_, ?_, ?_, ?rootByte⟩
  all_goals repeat rw [BitVec.extractLsb'_append_eq_of_le (by omega)]
  case rootByte => exact BitVec.extractLsb'_eq_self
  all_goals exact BitVec.extractLsb'_append_eq_right

/-- Settles O12: the fields of the packing, each flag as a bit; while BUSY the invariant fixes `DONE` and `CAUSE`. -/
theorem readStatusPacksTheFlags : Obligations.ReadStatusPacksTheFlags := by
  refine ⟨fun s lo data => ?_, by decide, by decide⟩
  obtain ⟨hbusy, hdone, hextra, hnoEnd, hphase, h7, hcause, h12, herr, h17⟩ := status_packing (v := statusWord s) rfl
  refine ⟨statusWord s, rfl, getLsbD_of_extract_flag hbusy, getLsbD_of_extract_flag hdone,
    getLsbD_of_extract_flag hextra, getLsbD_of_extract_flag hnoEnd, hphase, getLsbD_of_extract_flag h7, hcause, h12,
    getLsbD_of_extract_flag herr, h17, fun hquiet hp => ?_⟩
  obtain ⟨hd, hc⟩ := ((quietWhileBusy_iff s).mp hquiet).resolve_left hp
  rw [getLsbD_of_extract_flag hdone, hcause, hd, hc]
  exact ⟨rfl, rfl⟩

/-- Settles O13: the words by definition, and the fields of the packing of `LZW_STATE`. -/
theorem readIdentityCountersAndReserved : Obligations.ReadIdentityCountersAndReserved := by
  intro s b1 b4 b5 lo data
  obtain ⟨hcodeSize, hmaxCode, hfresh, h18, hroot⟩ := lzwState_packing (v := lzwStateWord s.regs) rfl
  exact ⟨rfl, rfl, rfl, rfl, rfl, rfl, rfl, rfl, lzwStateWord s.regs, rfl, hcodeSize, hmaxCode,
    getLsbD_of_extract_flag hfresh, h18, hroot⟩

/-- Settles O14: each reply is the word of the register itself. -/
theorem readConfiguration : Obligations.ReadConfiguration :=
  fun _ _ _ => ⟨rfl, rfl, rfl, rfl, rfl, rfl⟩

/-- An entry not loaded since reset reads `PAL_INIT` (R36, R45). -/
theorem palRead_of_not_loaded {s : State} {i : Byte} (h : cellGet i.toNat s.pal = none) :
    palRead s i = Config.palInit i := by
  rw [palRead, h, Option.getD_none]

/-- Settles O15: the reply is the entry's word, and an entry not loaded is `PAL_INIT`'s. -/
theorem readPaletteEntry : Obligations.ReadPaletteEntry :=
  fun _ _ _ => ⟨rfl, palRead_of_not_loaded⟩

end Sys2Proof.Machine
end

section
/-! What a register write does: the commands of `CTRL`, the writes of `STATUS` and of the configuration with what reads
back, and the palette. -/

namespace Sys2Proof.Machine

/-- Settles O16: each of these rows is the ignored write. -/
theorem ignoredWritesChangeNothing : Obligations.IgnoredWritesChangeNothing :=
  fun _ _ _ _ _ _ => ⟨rfl, rfl, rfl, rfl, rfl, rfl, rfl, rfl⟩

/-! ### START and ABORT (R113, R114, R116) -/

/-- `total` is the exact product: two 16-bit dimensions do not overflow 32 bits (R35). -/
theorem latchCfg_total_toNat (r : HostRegs) : (latchCfg r).total.toNat = r.frameW.toNat * r.frameH.toNat := by
  have hlt : r.frameW.toNat * r.frameH.toNat < 2 ^ 16 * 2 ^ 16 := Nat.mul_lt_mul'' r.frameW.isLt r.frameH.isLt
  exact (BitVec.toNat_ofNat _ 32).trans (Nat.mod_eq_of_lt hlt)

theorem exec_wrCtrlStart (lo : BitVec 2) (data : Word) (s : State) :
    exec (.wrCtrlStart lo data) s = .next (startFrame s) := rfl

theorem startFrame_of_idle {s : State} (h : s.phase = .idle) :
    startFrame s =
      { s with
        cfg := latchCfg s.regs
        regs :=
          { s.regs with
            done := false, cause := .ok, pixCount := 0, bytesIn := 0
            lzwState := { codeSize := 0, maxCode := 0, fresh := false, rootByte := 0 } }
        extra := false, noEnd := false, cur := { row := 0, col := 0, pass := 1 }, phase := .root } :=
  if_pos h

theorem startFrame_of_busy {s : State} (h : s.phase ≠ .idle) :
    startFrame s = { s with regs := { s.regs with errBusy := true } } :=
  if_neg h

theorem abortFrame_of_idle {s : State} (h : s.phase = .idle) : abortFrame s = s :=
  if_pos h

theorem abortFrame_of_busy {s : State} (h : s.phase ≠ .idle) : abortFrame s = finish .aborted s :=
  if_neg h

/-- Settles O18: the latched `total` is the product, and `DONE` = 0 holds `irq` at 0. -/
theorem startLatchesTheFrame : Obligations.StartLatchesTheFrame := by
  intro s lo data hidle
  refine ⟨_, exec_wrCtrlStart lo data s, ?_⟩
  rw [startFrame_of_idle hidle]
  exact ⟨rfl, latchCfg_total_toNat s.regs, rfl, rfl⟩

/-- Settles O19: after an ABORT the block is IDLE, so a START in the same write is not refused. -/
theorem startWhileBusyIsRefused : Obligations.StartWhileBusyIsRefused := by
  intro s lo data hbusy
  refine ⟨by rw [exec_wrCtrlStart, startFrame_of_busy hbusy], fun h0 => ⟨startFrame (abortFrame s), ?_, ?_⟩⟩
  · rw [exec_wrCtrlAbort, if_pos h0]
  · rw [startFrame_of_idle (abortFrame_phase s), abortFrame_of_busy hbusy]
    exact ⟨rfl, rfl⟩

/-- Settles O20: the abort is `finish` with ABORTED while BUSY, and nothing while IDLE. -/
theorem abortEndsTheRunningFrame : Obligations.AbortEndsTheRunningFrame := by
  intro s lo data h0
  rw [exec_wrCtrlAbort, if_neg (ne_true_of_eq_false h0)]
  exact ⟨fun hbusy => by rw [abortFrame_of_busy hbusy]; rfl, fun hidle => by rw [abortFrame_of_idle hidle], rfl⟩

/-! ### What a register reads back as (R24 to R29) -/

/-- A word masked to its low bits is those bits under zeros. -/
theorem append_lowBits {m n : Nat} (v : BitVec (m + n)) :
    0#m ++ v.extractLsb' 0 n = v &&& (0#m ++ BitVec.allOnes n) := by
  have hv : v = v.extractLsb' n m ++ v.extractLsb' 0 n := by
    rw [BitVec.extractLsb'_append_extractLsb'_eq_extractLsb' (by omega), BitVec.extractLsb'_eq_self]
  conv_rhs => rw [hv, BitVec.and_append, BitVec.and_zero, BitVec.and_allOnes]

/-- A word masked to the implemented bits of `FRAME_CFG` (R27) is those bits, with zeros between and above them. -/
theorem append_frameCfgBits (v : BitVec (16 + 8 + 6 + 1 + 1)) :
    0#16 ++ v.extractLsb' 8 8 ++ 0#6 ++ v.extractLsb' 1 1 ++ v.extractLsb' 0 1
      = v &&& (0#16 ++ BitVec.allOnes 8 ++ 0#6 ++ BitVec.allOnes 1 ++ BitVec.allOnes 1) := by
  have hv :
      v = v.extractLsb' 16 16 ++ v.extractLsb' 8 8 ++ v.extractLsb' 2 6 ++ v.extractLsb' 1 1 ++ v.extractLsb' 0 1 := by
    iterate 4 rw [BitVec.extractLsb'_append_extractLsb'_eq_extractLsb' (by omega)]
    exact BitVec.extractLsb'_eq_self.symm
  conv_rhs =>
    rw [hv]
    simp only [BitVec.and_append, BitVec.and_zero, BitVec.and_allOnes]

/-- Clearing a flag by a bit of the data. -/
theorem and_not_eq_ite (flag clear : Bool) : (flag && !clear) = if clear then false else flag := by
  cases clear <;> simp

/-- Settles O21: the flags as they are cleared, and `irq` as the conjunction of `DONE` and `DONE_IE`. -/
theorem statusAndInterruptEnableWrites : Obligations.StatusAndInterruptEnableWrites := by
  intro s lo v
  refine ⟨⟨_, rfl, ?_, fun h1 => ?_⟩, ⟨_, rfl, rfl, fun hdone => ?_, ?_⟩⟩
  · simp only [and_not_eq_ite, dataClearDone, dataClearErr]
  · simp [irq, dataClearDone, h1]
  · simp [irq, hdone, dataDoneIe]
  · rw [irqEnWord, dataDoneIe, flagBit_getLsbD]
    exact append_lowBits (m := 31) (n := 1) v

/-- Settles O22: each register keeps the low bits of the data, which is what reads back. -/
theorem dimensionAndPaletteIndexWrites : Obligations.DimensionAndPaletteIndexWrites :=
  fun _ _ v =>
    ⟨⟨_, rfl, rfl, append_lowBits (m := 16) (n := 16) v⟩, ⟨_, rfl, rfl, append_lowBits (m := 16) (n := 16) v⟩,
      ⟨_, rfl, rfl, append_lowBits (m := 24) (n := 8) v⟩⟩

/-- Settles O23: `FRAME_CFG` keeps its implemented bits, which is what reads back. -/
theorem frameConfigAndBaseWrites : Obligations.FrameConfigAndBaseWrites := by
  refine fun s lo v => ⟨⟨_, rfl, rfl, ?_⟩, rfl⟩
  rw [frameCfgWord, dataInterlace, dataTranspEn, flagBit_getLsbD, flagBit_getLsbD]
  exact append_frameCfgBits v

/-! ### The palette (R123) -/

theorem exec_wrPalData_of_idle (lo : BitVec 2) (data : Word) {s : State} (h : s.phase = .idle) :
    exec (.wrPalData lo data) s =
      .next
        { s with
          pal := cellSet s.regs.palIndex.toNat (dataRgb data) s.pal
          regs := { s.regs with palIndex := s.regs.palIndex + 1 } } :=
  if_pos h

theorem exec_wrPalData_of_busy (lo : BitVec 2) (data : Word) {s : State} (h : s.phase ≠ .idle) :
    exec (.wrPalData lo data) s = .next { s with regs := { s.regs with errBusy := true } } :=
  if_neg h

/-- Settles O24: the loaded entry shows at the index as it was before the write, and nowhere else. -/
theorem paletteWrite : Obligations.PaletteWrite := by
  intro s lo v
  refine ⟨fun hidle => ⟨_, exec_wrPalData_of_idle lo v hidle, rfl, ?_, fun j hj => ?_⟩, exec_wrPalData_of_busy lo v⟩
  · exact (palRead_load s _ _ _).trans (if_pos rfl)
  · exact (palRead_load s _ j _).trans (if_neg hj)

end Sys2Proof.Machine
end

section
/-! A sub-block's payload: appended whole to the bit buffer (R153), skipped in DRAIN (R158). -/

namespace Sys2Proof.Machine

/-! ### Appending a payload (R153) -/

theorem appendData_append (r : Reader) (d1 d2 : List Byte) :
    appendData r (d1 ++ d2) = appendData (appendData r d1) d2 :=
  List.foldl_append

/-- Each byte of a payload that fits adds its eight bits and keeps the buffer bounded. -/
theorem appendData_bounded {r : Reader} {data : List Byte} (hr : readerBounded r = true)
    (hfit : r.nbits.toNat + 8 * data.length ≤ 2051) :
    (appendData r data).nbits.toNat = r.nbits.toNat + 8 * data.length
      ∧ readerBounded (appendData r data) = true := by
  induction data generalizing r with
  | nil => exact ⟨rfl, hr⟩
  | cons b data ih =>
    rw [List.length_cons] at hfit
    have hb : (appendByte r b).nbits.toNat = r.nbits.toNat + 8 := appendByte_nbits b (by omega)
    obtain ⟨hn, hbounded⟩ := ih (appendByte_bounded b hr (by omega)) (by omega)
    refine ⟨hn.trans ?_, hbounded⟩
    rw [hb, List.length_cons]
    omega

theorem appendData_keeps_older {r : Reader} {data : List Byte} (hfit : r.nbits.toNat + 8 * data.length ≤ 2051)
    {j : Nat} (hj : j < r.nbits.toNat) : (appendData r data).acc.getLsbD j = r.acc.getLsbD j := by
  induction data generalizing r with
  | nil => rfl
  | cons b data ih =>
    rw [List.length_cons] at hfit
    have hb : (appendByte r b).nbits.toNat = r.nbits.toNat + 8 := appendByte_nbits b (by omega)
    exact (ih (r := appendByte r b) (by omega) (by omega)).trans (appendByte_keeps_older r b hj)

/-- A code depends on the oldest bits alone (R65). -/
theorem takeCode_code_congr {r r' : Reader} {w : Nat} (hw : w ≤ 12)
    (h : ∀ j, j < w → r.acc.getLsbD j = r'.acc.getLsbD j) : (takeCode w r).1 = (takeCode w r').1 := by
  apply BitVec.eq_of_getLsbD_eq
  intro j _
  rw [takeCode_code_getLsbD r hw, takeCode_code_getLsbD r' hw]
  by_cases hj : j < w
  · rw [h j hj]
  · simp [hj]

/-- Bits appended above a whole code do not change it. -/
theorem takeCode_appendData {r : Reader} {w : Nat} {data : List Byte} (hw : w ≤ 12) (hcode : w ≤ r.nbits.toNat)
    (hfit : r.nbits.toNat + 8 * data.length ≤ 2051) : (takeCode w (appendData r data)).1 = (takeCode w r).1 :=
  takeCode_code_congr hw fun _ hj => appendData_keeps_older hfit (hj.trans_le hcode)

/-! ### The code after a refill (R153, R159) -/

/-- The state after `ReadSubBlock` has taken a block and its payload has been appended. -/
def refilled (data rest : List Byte) (s : State) : State :=
  { tookBytes (data.length + 1) rest s with rd := appendData s.rd data }

theorem nextCode_of_enough {w : Nat} {s : State} (h : w ≤ s.rd.nbits.toNat) :
    nextCode w s = (.code (takeCode w s.rd).1, { s with rd := (takeCode w s.rd).2 }) := by
  rw [nextCode_eq, if_pos h]

theorem readSubBlock_cons {n : Byte} {rest : List Byte} {s : State} (hin : s.input = n :: rest) :
    readSubBlock s = readPayload n (tookBytes 1 rest s) := by
  rw [readSubBlock, takeByte_cons hin]

theorem readSubBlock_enough {n : Byte} {data rest : List Byte} {s : State} (hd : data.length = n.toNat)
    (hin : s.input = n :: (data ++ rest)) :
    readSubBlock s = (.block n data, tookBytes (data.length + 1) rest s) := by
  rw [readSubBlock_cons hin, readPayload_enough n data rest (tookBytes 1 (data ++ rest) s) hd rfl, tookBytes_tookBytes,
    Nat.add_comm 1]

/-- A data sub-block that has come whole: the call goes on with its payload in the buffer. -/
theorem nextCode_of_dataBlock {w : Nat} {n : Byte} {data rest : List Byte} {s : State} (hlt : s.rd.nbits.toNat < w)
    (hx : s.rd.exhausted = false) (hn : n ≠ 0) (hd : data.length = n.toNat) (hin : s.input = n :: (data ++ rest)) :
    nextCode w s = nextCode w (refilled data rest s) := by
  rw [nextCode_eq, if_neg (Nat.not_le.mpr hlt), if_neg (by simp [hx]), readSubBlock_enough hd hin]
  simp only [refill, if_neg hn]
  rfl

/-- When the payload fills the buffer, the code is the oldest bits of the filled buffer. -/
theorem nextCode_code_of_dataBlock {w : Nat} {n : Byte} {data rest : List Byte} {s : State}
    (hlt : s.rd.nbits.toNat < w) (hx : s.rd.exhausted = false) (hn : n ≠ 0) (hd : data.length = n.toNat)
    (hin : s.input = n :: (data ++ rest)) (hcode : w ≤ (appendData s.rd data).nbits.toNat) :
    (nextCode w s).1 = .code (takeCode w (appendData s.rd data)).1 := by
  rw [nextCode_of_dataBlock hlt hx hn hd hin, nextCode_of_enough hcode]
  rfl

/-- The length byte of a payload of 1 to 255 bytes. -/
theorem lengthByte_of_length {data : List Byte} (hpos : 0 < data.length) (hle : data.length ≤ 255) :
    BitVec.ofNat 8 data.length ≠ 0 ∧ data.length = (BitVec.ofNat 8 data.length).toNat := by
  have hlen : data.length = (BitVec.ofNat 8 data.length).toNat := by
    rw [BitVec.toNat_ofNat, Nat.mod_eq_of_lt (by omega)]
  refine ⟨fun h0 => ?_, hlen⟩
  rw [h0] at hlen
  exact absurd hlen (Nat.pos_iff_ne_zero.mp hpos)

/-- The same payload in two blocks: unless the first part already holds the code, the second fills the buffer alike; and
if it does, the second part lies above the code. -/
theorem nextCode_code_of_twoBlocks {w : Nat} {n1 n2 : Byte} {d1 d2 rest : List Byte} {s : State} (hw : w ≤ 12)
    (hlt : s.rd.nbits.toNat < w) (hx : s.rd.exhausted = false) (hn1 : n1 ≠ 0) (hd1 : d1.length = n1.toNat)
    (hn2 : n2 ≠ 0) (hd2 : d2.length = n2.toNat) (hin : s.input = n1 :: (d1 ++ n2 :: (d2 ++ rest)))
    (hfit : (appendData s.rd d1).nbits.toNat + 8 * d2.length ≤ 2051)
    (hcode : w ≤ (appendData s.rd (d1 ++ d2)).nbits.toNat) :
    (nextCode w s).1 = .code (takeCode w (appendData s.rd (d1 ++ d2))).1 := by
  rw [appendData_append] at hcode ⊢
  rw [nextCode_of_dataBlock hlt hx hn1 hd1 hin]
  by_cases hfirst : w ≤ (appendData s.rd d1).nbits.toNat
  · rw [nextCode_of_enough hfirst, takeCode_appendData hw hfirst hfit]
    rfl
  · exact nextCode_code_of_dataBlock (s := refilled d1 _ s) (Nat.not_le.mp hfirst)
      ((appendData_exhausted s.rd d1).trans hx) hn2 hd2 rfl hcode

/-- Settles O39: both ways read the oldest bits of the buffer that the whole payload fills. -/
theorem splittingKeepsTheCode : Obligations.SplittingKeepsTheCode := by
  intro s w d1 d2 rest hr hx hlt hw hpos1 hpos2 hle hfill
  have hlen : (d1 ++ d2).length = d1.length + d2.length := List.length_append
  obtain ⟨hnbits, -⟩ := appendData_bounded (data := d1 ++ d2) hr (by omega)
  obtain ⟨hnbits1, -⟩ := appendData_bounded (data := d1) hr (by omega)
  obtain ⟨hn, hd⟩ := lengthByte_of_length (data := d1 ++ d2) (by omega) (by omega)
  obtain ⟨hn1, hd1⟩ := lengthByte_of_length hpos1 (by omega)
  obtain ⟨hn2, hd2⟩ := lengthByte_of_length hpos2 (by omega)
  have hcode : w ≤ (appendData s.rd (d1 ++ d2)).nbits.toNat := by omega
  have hfit : (appendData s.rd d1).nbits.toNat + 8 * d2.length ≤ 2051 := by omega
  rw [← hlen]
  exact ⟨_, nextCode_code_of_dataBlock hlt hx hn hd rfl hcode,
    nextCode_code_of_twoBlocks hw hlt hx hn1 hd1 hn2 hd2 rfl hfit hcode⟩

/-! ### DRAIN (R158, R245) -/

theorem execSubData_of_drain {s : State} (hp : s.phase = .drain) (n : Byte) :
    exec (.subData n) s = skipPayload n s := by
  rw [exec, execSubData, hp]

theorem execSubTerminator_of_drain {s : State} (hp : s.phase = .drain) :
    exec .subTerminator s = .next (finish s.pend (setExhausted s)) := by
  rw [exec, execSubTerminator, hp]

/-- Settles O35: the payload is taken whole or the input ends in it; the terminator finishes with the pending cause. -/
theorem subBlocksInDrainAreSkipped : Obligations.SubBlocksInDrainAreSkipped := by
  intro s hp
  refine ⟨fun n data rest hd hin => ?_, fun n hshort => ?_, ?_⟩
  · rw [execSubData_of_drain hp, skipPayload, readPayload_enough n data rest s hd hin]
    rfl
  · rw [execSubData_of_drain hp, skipPayload, readPayload_short n s hshort]
    rfl
  · exact execSubTerminator_of_drain hp

end Sys2Proof.Machine
end

section
/-! The codes of one `NextIndex` call: the ranges they are read in, the end of the call's loop, and the call split
into its first token and the rest. -/

namespace Sys2Proof.Machine

/-! ### The ranges of the reader and of the LZW unit -/

/-- The conditions of `lzwInRange`, by name. -/
structure LzwRanges (l : Lzw) : Prop where
  rootMin : 2 ≤ l.rootSize.toNat
  rootMax : l.rootSize.toNat ≤ 8
  clearCode : l.clearCode.toNat = 2 ^ l.rootSize.toNat
  endCode : l.endCode.toNat = l.clearCode.toNat + 1
  widthMin : l.rootSize.toNat + 1 ≤ l.codeSize.toNat
  widthMax : l.codeSize.toNat ≤ 12
  maxCodeSize : l.maxCodeSize.toNat = 2 ^ l.codeSize.toNat
  maxCodeMin : l.clearCode.toNat + 2 ≤ l.maxCode.toNat
  maxCodeMax : l.maxCode.toNat ≤ l.maxCodeSize.toNat
  grown : l.maxCode.toNat < l.maxCodeSize.toNat ∨ l.maxCodeSize.toNat = 4096
  fresh : l.fresh = true → l.maxCode.toNat = l.clearCode.toNat + 2

theorem lzwInRange_iff (l : Lzw) : lzwInRange l = true ↔ LzwRanges l := by
  simp only [lzwInRange, Bool.and_eq_true, Bool.or_eq_true, Bool.not_eq_true', decide_eq_true_eq,
    ← Bool.not_eq_true, ← imp_iff_not_or]
  constructor
  · rintro ⟨⟨⟨⟨⟨⟨⟨⟨⟨⟨h1, h2⟩, h3⟩, h4⟩, h5⟩, h6⟩, h7⟩, h8⟩, h9⟩, h10⟩, h11⟩
    exact ⟨h1, h2, h3, h4, h5, h6, h7, h8, h9, h10, h11⟩
  · rintro ⟨h1, h2, h3, h4, h5, h6, h7, h8, h9, h10, h11⟩
    exact ⟨⟨⟨⟨⟨⟨⟨⟨⟨⟨h1, h2⟩, h3⟩, h4⟩, h5⟩, h6⟩, h7⟩, h8⟩, h9⟩, h10⟩, h11⟩

/-- The LZW unit between two codes of a frame: in range, with no result held and the stack within its depth. -/
structure LzwReady (l : Lzw) : Prop where
  ranges : LzwRanges l
  result : l.result = .none
  depth : l.stack.length ≤ 4096

/-- Reader and LZW unit as the engine's invariant has them while codes are decoded. -/
structure ReadyForCodes (s : State) : Prop where
  bounded : readerBounded s.rd = true
  lzw : LzwReady s.lzw

theorem engineInv_iff (s : State) :
    engineInv s = true ↔
      readerBounded s.rd = true ∧ (decoding s = true → LzwReady s.lzw)
        ∧ (s.phase = .drain → s.pend ∈ drainCauses) := by
  have hready : LzwReady s.lzw ↔
      (lzwInRange s.lzw = true ∧ s.lzw.result = .none) ∧ s.lzw.stack.length ≤ 4096 := by
    rw [lzwInRange_iff]
    exact ⟨fun ⟨h1, h2, h3⟩ => ⟨⟨h1, h2⟩, h3⟩, fun ⟨⟨h1, h2⟩, h3⟩ => ⟨h1, h2, h3⟩⟩
  simp only [engineInv, Bool.and_eq_true, Bool.or_eq_true, Bool.not_eq_true', decide_eq_true_eq,
    ← Bool.not_eq_true, ← imp_iff_not_or, hready, and_assoc]

theorem readyForCodes_of_engineInv {s : State} (h : engineInv s = true) (hd : decoding s = true) : ReadyForCodes s := by
  obtain ⟨hr, hl, -⟩ := (engineInv_iff s).mp h
  exact ⟨hr, hl hd⟩

/-- `ResetTable` sets ranges of its own: it needs the constants of the root size only (R182). -/
theorem LzwRanges.of_resetTable {l : Lzw} (hmin : 2 ≤ l.rootSize.toNat) (hmax : l.rootSize.toNat ≤ 8)
    (hclear : l.clearCode.toNat = 2 ^ l.rootSize.toNat) (hend : l.endCode.toNat = l.clearCode.toNat + 1) :
    LzwRanges (resetTable l) := by
  have hle : 2 ^ l.rootSize.toNat ≤ 2 ^ 8 := Nat.pow_le_pow_right (by decide) hmax
  have hge : 2 ^ 2 ≤ 2 ^ l.rootSize.toNat := Nat.pow_le_pow_right (by decide) hmin
  have hwidth : (resetTable l).codeSize.toNat = l.rootSize.toNat + 1 := by
    simp only [resetTable]; bv_omega
  have hsize : (resetTable l).maxCodeSize.toNat = 2 * l.clearCode.toNat := by
    simp only [resetTable]; bv_omega
  have hcode : (resetTable l).maxCode.toNat = l.clearCode.toNat + 2 := by
    simp only [resetTable]; bv_omega
  have hpow : (resetTable l).maxCodeSize.toNat = 2 ^ (resetTable l).codeSize.toNat := by
    rw [hsize, hwidth, hclear, Nat.pow_succ, Nat.mul_comm]
  exact
    { rootMin := hmin, rootMax := hmax, clearCode := hclear, endCode := hend
      widthMin := hwidth.ge, widthMax := by omega, maxCodeSize := hpow
      maxCodeMin := hcode.ge, maxCodeMax := by omega, grown := .inl (by omega), fresh := fun _ => hcode }

theorem LzwReady.resetTable {l : Lzw} (h : LzwReady l) : LzwReady (resetTable l) where
  ranges := .of_resetTable h.ranges.rootMin h.ranges.rootMax h.ranges.clearCode h.ranges.endCode
  result := h.result
  depth := Nat.zero_le _

theorem ReadyForCodes.clearTable {s : State} (h : ReadyForCodes s) : ReadyForCodes (clearTable s) :=
  ⟨h.bounded, h.lzw.resetTable⟩

/-! ### The reader through NextCode (R153, R154) -/

@[simp] theorem tookBytes_rd (n : Nat) (rest : List Byte) (s : State) : (tookBytes n rest s).rd = s.rd := rfl

@[simp] theorem tookBytes_input (n : Nat) (rest : List Byte) (s : State) : (tookBytes n rest s).input = rest := rfl

/-- A refill happens with fewer bits than a code has, so a whole payload fits (R154). -/
theorem refill_bounded {n : Byte} {data : List Byte} {s : State} (hr : readerBounded s.rd = true)
    (hlt : s.rd.nbits.toNat < 12) (hd : data.length = n.toNat) :
    (refill n data s).rd.nbits.toNat = s.rd.nbits.toNat + 8 * data.length
      ∧ readerBounded (refill n data s).rd = true := by
  have hn := n.isLt
  unfold refill
  split_ifs with h0
  · subst h0
    rw [hd]
    exact ⟨rfl, hr⟩
  · exact appendData_bounded hr (by omega)

/-- The bits that the reader can still deliver before the input presented is used up. -/
def bitsLeft (s : State) : Nat := s.rd.nbits.toNat + 8 * s.input.length

/-- `NextCode` keeps the reader bounded, and a code takes its bits from those that are left. -/
theorem nextCodeLoop_bits {w : Nat} (hw : w ≤ 12) (turns : Nat) {s : State} (hr : readerBounded s.rd = true) :
    readerBounded (nextCodeLoop w turns s).2.rd = true
      ∧ ∀ c, (nextCodeLoop w turns s).1 = .code c → bitsLeft (nextCodeLoop w turns s).2 + w ≤ bitsLeft s := by
  induction turns generalizing s with
  | zero => exact ⟨hr, fun c h => by cases h⟩
  | succ turns ih =>
    rw [nextCodeLoop]
    split_ifs with hbits hx
    · refine ⟨takeCode_bounded hr hw hbits, fun c _ => ?_⟩
      have hn := takeCode_nbits hw hbits
      simp only [bitsLeft] at hn ⊢
      omega
    · exact ⟨hr, fun c h => by cases h⟩
    · rcases readSubBlock_cases s with ⟨-, he⟩ | ⟨n, data, rest, hd, hin, he⟩
      · rw [he]
        exact ⟨hr, fun c h => by cases h⟩
      · obtain ⟨hn, hb⟩ := refill_bounded (s := tookBytes (data.length + 1) rest s) hr
          (show s.rd.nbits.toNat < 12 by omega) hd
        rw [tookBytes_rd] at hn
        obtain ⟨hbounded, hleft⟩ := ih hb
        simp only [he]
        refine ⟨hbounded, fun c hc => (hleft c hc).trans ?_⟩
        simp only [bitsLeft, hn, hin, refill_input, tookBytes_input, List.length_cons, List.length_append]
        omega

theorem nextCode_bits {w : Nat} (hw : w ≤ 12) {s : State} (hr : readerBounded s.rd = true) :
    readerBounded (nextCode w s).2.rd = true
      ∧ ∀ c, (nextCode w s).1 = .code c → bitsLeft (nextCode w s).2 + w ≤ bitsLeft s :=
  nextCodeLoop_bits hw _ hr

theorem nextCode_lzw (w : Nat) (s : State) : (nextCode w s).2.lzw = s.lzw := by
  obtain ⟨taken, rest, -, h⟩ := nextCode_frame w s
  rw [h]
  rfl

/-- The state in which a code is executed is ready again, with fewer bits left. -/
theorem ReadyForCodes.nextCode {s s1 : State} {c : Code} (h : ReadyForCodes s)
    (hc : nextCode s.lzw.codeSize.toNat s = (.code c, s1)) : ReadyForCodes s1 ∧ bitsLeft s1 < bitsLeft s := by
  obtain ⟨hbounded, hbits⟩ := nextCode_bits h.lzw.ranges.widthMax h.bounded
  have hlzw := nextCode_lzw s.lzw.codeSize.toNat s
  rw [hc] at hbounded hlzw hbits
  have hmin := h.lzw.ranges.widthMin
  have hleft : bitsLeft s1 + s.lzw.codeSize.toNat ≤ bitsLeft s := hbits c rfl
  exact ⟨⟨hbounded, hlzw.symm ▸ h.lzw⟩, by omega⟩

/-! ### The end of the loop of NextIndex (R184, R160) -/

/-- A turn that goes round takes a clear code, so as many turns as bits are left suffice. -/
theorem nextIndexLoop_ends {turns : Nat} {s : State} (h : ReadyForCodes s) (hturns : bitsLeft s < turns) :
    ∃ q, nextIndexLoop turns s = some q := by
  induction turns generalizing s with
  | zero => exact absurd hturns (Nat.not_lt_zero _)
  | succ turns ih =>
    rw [nextIndexLoop]
    rcases hn : nextCode s.lzw.codeSize.toNat s with ⟨_ | _ | _, s1⟩
    case code c =>
      obtain ⟨h1, hlt⟩ := h.nextCode hn
      cases hk : classify (codeContext s1.lzw) c <;> simp only [hk]
      case clear => exact ih h1.clearTable (show bitsLeft s1 < turns by omega)
      all_goals exact ⟨_, rfl⟩
    all_goals exact ⟨_, rfl⟩

theorem nextIndexLoop_mono {a b : Nat} {s : State} {q : IndexResult × State} (hab : a ≤ b)
    (h : nextIndexLoop a s = some q) : nextIndexLoop b s = some q := by
  induction b, hab using Nat.le_induction with
  | base => exact h
  | succ b _ ih => exact nextIndexLoop_more ih

/-- Any number of turns above the bits left gives what `readIndex` gives. -/
theorem nextIndexLoop_eq_readIndex {turns : Nat} {s : State} (h : ReadyForCodes s) (hturns : bitsLeft s < turns) :
    nextIndexLoop turns s = readIndex s := by
  obtain ⟨q, hq⟩ := nextIndexLoop_ends h (Nat.lt_succ_self (bitsLeft s))
  have hfor : bitsLeft s + 1 ≤ turnsFor s := Nat.le_succ _
  rw [nextIndexLoop_mono hturns hq, readIndex, nextIndexLoop_mono hfor hq]

/-! ### The call by its first code -/

theorem readOn_of_code {s s1 : State} {c : Code} (h : ReadyForCodes s)
    (hc : nextCode s.lzw.codeSize.toNat s = (.code c, s1)) :
    readOn s = exec (decodeCode (codeContext s1.lzw) c) s1 := by
  obtain ⟨h1, hlt⟩ := h.nextCode hc
  have hclear := nextIndexLoop_eq_readIndex (turns := bitsLeft s + 1) h1.clearTable
    (show bitsLeft s1 < bitsLeft s + 1 by omega)
  rw [readOn, readIndex, show turnsFor s = bitsLeft s + 1 + 1 from rfl, nextIndexLoop, hc, decodeCode]
  cases hk : classify (codeContext s1.lzw) c <;> simp only [hk]
  case clear => rw [hclear]; rfl
  all_goals rfl

theorem readOn_of_endOfStream {s s1 : State} (hc : nextCode s.lzw.codeSize.toNat s = (.endOfStream, s1)) :
    readOn s = settle (streamEnded s1).1 (streamEnded s1).2 := by
  rw [readOn, readIndex, turnsFor, nextIndexLoop, hc]

theorem readOn_of_corrupt {s s1 : State} (hc : nextCode s.lzw.codeSize.toNat s = (.corrupt, s1)) :
    readOn s = settle (raiseCorrupt .inputEof s1).1 (raiseCorrupt .inputEof s1).2 := by
  rw [readOn, readIndex, turnsFor, nextIndexLoop, hc]

end Sys2Proof.Machine
end

section
/-! The refill of a FILL or TAIL step, and an engine step as the rule of its phase: the token that `fetch` takes and the
meaning that `exec` gives it make one `NextIndex` call (R184, R230). -/

namespace Sys2Proof.Machine

/-! ### The ends of NextCode (R155, R156) -/

theorem nextCode_of_exhausted {w : Nat} {s : State} (hlt : s.rd.nbits.toNat < w) (hx : s.rd.exhausted = true) :
    nextCode w s = (.endOfStream, s) := by
  rw [nextCode_eq, if_neg (Nat.not_le.mpr hlt), if_pos hx]

theorem nextCode_of_eof {w : Nat} {s s1 : State} (hlt : s.rd.nbits.toNat < w) (hx : s.rd.exhausted = false)
    (he : readSubBlock s = (.eof, s1)) : nextCode w s = (.corrupt, s1) := by
  rw [nextCode_eq, if_neg (Nat.not_le.mpr hlt), if_neg (by simp [hx]), he]

theorem readPayload_zero (s : State) : readPayload 0 s = (.block 0 [], s) := rfl

theorem nextCode_of_terminator {w : Nat} {rest : List Byte} {s : State} (hlt : s.rd.nbits.toNat < w)
    (hx : s.rd.exhausted = false) (hin : s.input = 0 :: rest) :
    nextCode w s = (.endOfStream, setExhausted (tookBytes 1 rest s)) := by
  rw [nextCode_eq, if_neg (Nat.not_le.mpr hlt), if_neg (by simp [hx]), readSubBlock_cons hin, readPayload_zero]
  exact nextCode_of_exhausted hlt rfl

/-! ### The refill (R153) -/

theorem execSubTerminator_of_decoding {s : State} (hd : decoding s = true) :
    exec .subTerminator s = readOn (setExhausted s) := by
  rcases (decoding_iff s).mp hd with hp | hp <;> rw [exec, execSubTerminator, hp]

theorem execSubData_of_decoding {s : State} (hd : decoding s = true) (n : Byte) :
    exec (.subData n) s = refillAndReadOn n s := by
  rcases (decoding_iff s).mp hd with hp | hp <;> rw [exec, execSubData, hp]

theorem ReadyForCodes.appendData_bounded {n : Byte} {data : List Byte} {s : State} (h : ReadyForCodes s)
    (hlt : s.rd.nbits.toNat < s.lzw.codeSize.toNat) (hd : data.length = n.toNat) :
    readerBounded (appendData s.rd data) = true := by
  have hn := n.isLt
  have hw := h.lzw.ranges.widthMax
  exact (Machine.appendData_bounded h.bounded (by omega)).2

/-- Settles O36: the terminator ends the stream and a payload cut short the input; a whole payload that fills the buffer
makes the rest of the call start with its code. -/
theorem refillsInTheData : Obligations.RefillsInTheData := by
  intro s hd hlt
  refine ⟨?_, fun n hshort => ?_, ?_⟩
  · rw [execSubTerminator_of_decoding hd, readOn_of_endOfStream (nextCode_of_exhausted (s := setExhausted s) hlt rfl)]
    exact settle_endOfData { setExhausted s with noEnd := true } hd
  · rw [execSubData_of_decoding hd, refillAndReadOn, readPayload_short n s hshort]
    exact settle_eof (tookBytes s.input.length [] s) hd
  · rintro n data rest s0 hinv hlen hin rfl hcode
    have hready := readyForCodes_of_engineInv hinv hd
    rw [execSubData_of_decoding hd, refillAndReadOn, readPayload_enough n data rest s hlen hin]
    exact readOn_of_code (s := { tookBytes data.length rest s with rd := appendData s.rd data })
      ⟨hready.appendData_bounded hlt hlen, hready.lzw⟩ (nextCode_of_enough hcode)

/-! ### The first token of a call, and the call -/

/-- The rest of a `NextIndex` call depends on the LZW unit and on what `NextCode` answers. -/
theorem readOn_congr {s s' : State} (h : ReadyForCodes s) (h' : ReadyForCodes s') (hlzw : s'.lzw = s.lzw)
    (hc : nextCode s.lzw.codeSize.toNat s = nextCode s.lzw.codeSize.toNat s') : readOn s = readOn s' := by
  rcases hn : nextCode s.lzw.codeSize.toNat s with ⟨_ | _ | _, s1⟩ <;> rw [hn, ← hlzw] at hc
  · rw [readOn_of_code h hn, readOn_of_code h' hc.symm]
  · rw [readOn_of_endOfStream hn, readOn_of_endOfStream hc.symm]
  · rw [readOn_of_corrupt hn, readOn_of_corrupt hc.symm]

/-- The refill by the sub-block whose length byte stands next is part of the call (R153). -/
theorem exec_decodeSub_eq_readOn {n : Byte} {rest : List Byte} {s : State} (hd : decoding s = true)
    (h : ReadyForCodes s) (hlt : s.rd.nbits.toNat < s.lzw.codeSize.toNat) (hx : s.rd.exhausted = false)
    (hin : s.input = n :: rest) : exec (decodeSub n) (tookBytes 1 rest s) = readOn s := by
  have hd1 : decoding (tookBytes 1 rest s) = true := hd
  by_cases h0 : n = 0
  · subst h0
    rw [readOn_of_endOfStream (nextCode_of_terminator hlt hx hin)]
    exact (execSubTerminator_of_decoding hd1).trans (readOn_of_endOfStream (nextCode_of_exhausted hlt rfl))
  · have hsub := readSubBlock_cons hin
    rw [decodeSub, if_neg h0, execSubData_of_decoding hd1, refillAndReadOn]
    rcases readPayload_cases n (tookBytes 1 rest s) with ⟨-, hp⟩ | ⟨data, rest', hlen, hdata, hp⟩ <;> rw [hp] at hsub ⊢
    · rw [readOn_of_corrupt (nextCode_of_eof hlt hx hsub)]
    · refine (readOn_congr (s' := { tookBytes data.length rest' (tookBytes 1 rest s) with rd := appendData s.rd data })
        h ⟨h.appendData_bounded hlt hlen, h.lzw⟩ rfl ?_).symm
      have hwhole : s.input = n :: (data ++ rest') := hin.trans (congrArg (n :: ·) hdata)
      rw [nextCode_of_dataBlock hlt hx h0 hlen hwhole, refilled, tookBytes_tookBytes, Nat.add_comm 1]

/-- What a step does from its fetch on. -/
def Fetch.run (s : State) : Fetch → Host.Outcome State Fault Refusal
  | .noStep => .next s
  | .token i s1 => exec i s1
  | .result r s1 => settle r s1
  | .over s1 => .next s1

theorem engineStep_eq_run (s : State) : engineStep s = (fetch s).run s := by
  unfold engineStep
  cases fetch s <;> rfl

/-- The first token of a call that must read a code, and what it means, are the whole call. -/
theorem fetchCode_run {s : State} (hd : decoding s = true) (h : ReadyForCodes s) :
    (fetchCode s).run s = readOn s := by
  unfold fetchCode
  split_ifs with hbits hx
  · exact (readOn_of_code h (nextCode_of_enough hbits)).symm
  · exact (readOn_of_endOfStream (nextCode_of_exhausted (Nat.not_le.mp hbits) hx)).symm
  · have hlt := Nat.not_le.mp hbits
    rw [Bool.not_eq_true] at hx
    rcases takeByte_cases s with ⟨-, ht⟩ | ⟨n, rest, hin, ht⟩ <;> simp only [ht]
    · exact (readOn_of_corrupt (nextCode_of_eof hlt hx (by rw [readSubBlock, ht]))).symm
    · exact exec_decodeSub_eq_readOn hd h hlt hx hin

/-! ### The step of each phase (R230) -/

/-- A FILL or TAIL step settles the result of one `NextIndex` call (R234, R244). -/
theorem engineStep_of_decoding {s : State} (hd : decoding s = true) (h : ReadyForCodes s) :
    ∃ q, nextIndex s = some q ∧ engineStep s = settle q.1 q.2 := by
  rw [engineStep_eq_run, fetch_decoding hd, fetchIndex, nextIndex]
  cases hheld : heldIndex s with
  | some q => exact ⟨q, rfl, rfl⟩
  | none =>
    obtain ⟨q, hq⟩ := nextIndexLoop_ends h (turns := turnsFor s) (Nat.lt_succ_of_lt (Nat.lt_succ_self _))
    refine ⟨q, hq, ?_⟩
    simp only [fetchCode_run hd h, readOn, readIndex, hq]

/-- The ROOT step is R232's. -/
theorem engineStep_of_root {s : State} (hp : s.phase = .root) : engineStep s = .next (rootStep s) := by
  rw [engineStep_eq_run, fetch_root hp, fetchRoot, rootStep]
  rcases takeByte_cases s with ⟨-, ht⟩ | ⟨b, rest, -, ht⟩ <;> simp only [ht]
  · rfl
  · have hp1 : (tookBytes 1 rest s).phase = .root := hp
    simp only [Fetch.run, decode, decodeRoot]
    split_ifs with hvalid hbad hbad
    · omega
    · rw [exec, execRootValid, hp1]
    · rw [exec, execRootInvalid, hp1]
    · omega

/-- The DRAIN step is R245's. -/
theorem engineStep_of_drain {s : State} (hp : s.phase = .drain) : engineStep s = .next (drainStep s) := by
  rw [engineStep_eq_run, fetch_drain hp, fetchDrain, drainStep, drainRead]
  split_ifs with hx
  · rfl
  · rcases takeByte_cases (discard s) with ⟨-, ht⟩ | ⟨n, rest, hin, ht⟩
    · simp only [ht, readSubBlock, Fetch.run]
    · have hp1 : (tookBytes 1 rest (discard s)).phase = .drain := hp
      rw [readSubBlock_cons hin]
      simp only [ht, Fetch.run, decode, decodeSub]
      split_ifs with h0
      · subst h0
        rw [execSubTerminator_of_drain hp1, readPayload_zero]
        rfl
      · rw [execSubData_of_drain hp1, skipPayload]
        rcases readPayload_cases n (tookBytes 1 rest (discard s)) with ⟨-, h⟩ | ⟨data, rest', -, -, h⟩ <;>
          simp only [h, if_neg h0]

end Sys2Proof.Machine
end

section
/-! The engine's invariant: what each code class, each `NextIndex` call and each step leaves in range (R154, R201). -/

namespace Sys2Proof.Machine

/-! ### The LZW unit in an expansion -/

/-- The LZW unit in an expansion: ready for codes, and no longer fresh. -/
structure Expanding (l : Lzw) : Prop where
  ready : LzwReady l
  fresh : l.fresh = false

/-- An attempt goes on with a unit in range, or raises one of the causes that DRAIN holds. -/
def Attempt.Sound : Attempt → Prop
  | .ok l => Expanding l
  | .raised c _ => c ∈ drainCauses

theorem andThen_sound {a : Attempt} {f : Lzw → Attempt} (ha : a.Sound) (hf : ∀ l, Expanding l → (f l).Sound) :
    (andThen a f).Sound := by
  cases a with
  | ok l => exact hf l ha
  | raised c l => exact ha

/-- The ranges speak of the scalars only. -/
theorem LzwRanges.of_scalars {l l' : Lzw} (h : LzwRanges l) (he : lzwInRange l' = lzwInRange l) : LzwRanges l' :=
  (lzwInRange_iff l').mp (he.trans ((lzwInRange_iff l).mpr h))

theorem Expanding.setFirstCode {l : Lzw} (h : Expanding l) (v : Byte) : Expanding { l with firstCode := v } :=
  ⟨⟨h.ready.ranges.of_scalars rfl, h.ready.result, h.ready.depth⟩, h.fresh⟩

theorem Expanding.push {l : Lzw} (h : Expanding l) (v : Byte) : (push v l).Sound := by
  rcases push_cases v l with ⟨-, hp⟩ | ⟨hroom, hp⟩ <;> rw [hp]
  · exact (by decide : Cause.lzwStackOverflow ∈ drainCauses)
  · exact ⟨⟨h.ready.ranges.of_scalars rfl, h.ready.result, hroom⟩, h.fresh⟩

theorem Expanding.walkLoop {l : Lzw} (h : Expanding l) (resets turns : Nat) (c : Code) :
    (walkLoop resets turns c l).Sound := by
  induction turns generalizing c l with
  | zero => exact (by decide : Cause.lzwStackOverflow ∈ drainCauses)
  | succ turns ih =>
    rw [Machine.walkLoop]
    split_ifs
    · exact (by decide : Cause.lzwUndefinedCode ∈ drainCauses)
    · exact andThen_sound (h.push _) fun _ _ => (by decide : Cause.lzwSelfPrefix ∈ drainCauses)
    · exact andThen_sound (h.push _) fun _ h1 => ih h1 _
    · exact (h.setFirstCode _).push _

/-- Insertion keeps the ranges: the table grows when `maxCode` comes to `maxCodeSize` below 4096 (R195, R197). -/
theorem LzwRanges.insertEntry {l : Lzw} (h : LzwRanges l) (hf : l.fresh = false) : LzwRanges (insertEntry l) := by
  obtain ⟨hmin, hmax, hclear, hend, hwmin, hwmax, hsize, hcmin, hcmax, hgrown, -⟩ := h
  have hcap : 2 ^ l.codeSize.toNat ≤ 2 ^ 12 := Nat.pow_le_pow_right (by decide) hwmax
  unfold Machine.insertEntry
  split_ifs with hroom
  · change l.maxCode.toNat < 4096 at hroom
    have hcode : (l.maxCode + 1).toNat = l.maxCode.toNat + 1 := by bv_omega
    have hstale : l.fresh = true → (l.maxCode + 1).toNat = l.clearCode.toNat + 2 := by simp [hf]
    unfold grow
    split_ifs with hgrow
    · obtain ⟨hfull, hbelow⟩ := hgrow
      change l.maxCodeSize.toNat < 4096 at hbelow
      replace hfull : (l.maxCode + 1).toNat = l.maxCodeSize.toNat := congrArg BitVec.toNat hfull
      have hnarrow : l.codeSize.toNat < 12 :=
        (Nat.pow_lt_pow_iff_right (a := 2) (by decide)).mp (by rw [← hsize]; exact hbelow)
      have hwidth : (l.codeSize + 1).toNat = l.codeSize.toNat + 1 := by bv_omega
      have hdouble : (2 * l.maxCodeSize).toNat = 2 * l.maxCodeSize.toNat := by bv_omega
      have hpow : (2 * l.maxCodeSize).toNat = 2 ^ (l.codeSize + 1).toNat := by
        rw [hdouble, hwidth, hsize, Nat.pow_succ, Nat.mul_comm]
      refine ⟨hmin, hmax, hclear, hend, ?_, ?_, hpow, ?_, ?_, .inl ?_, hstale⟩ <;> dsimp only <;> omega
    · have hne : (l.maxCode + 1).toNat = l.maxCodeSize.toNat → 4096 ≤ l.maxCodeSize.toNat :=
        fun heq => Nat.not_lt.mp fun hlt => hgrow ⟨BitVec.eq_of_toNat_eq heq, hlt⟩
      refine ⟨hmin, hmax, hclear, hend, hwmin, hwmax, hsize, ?_, ?_, ?_, hstale⟩ <;> dsimp only <;> omega
  · exact ⟨hmin, hmax, hclear, hend, hwmin, hwmax, hsize, hcmin, hcmax, hgrown, by simp [hf]⟩

theorem Expanding.insertThenOld {l : Lzw} (h : Expanding l) (c : Code) : Expanding (insertThenOld c l) := by
  have hranges := h.ready.ranges.insertEntry h.fresh
  have hframe := insertEntry_frame l
  refine ⟨⟨hranges.of_scalars rfl, ?_, ?_⟩, ?_⟩ <;> rw [Machine.insertThenOld, hframe]
  · exact h.ready.result
  · exact h.ready.depth
  · exact h.fresh

/-- Every expansion ends in an insertion (R195). -/
theorem andThen_insert_sound {a : Attempt} (ha : a.Sound) (c : Code) :
    (andThen a fun l => .ok (insertThenOld c l)).Sound :=
  andThen_sound ha fun _ h => h.insertThenOld c

theorem Expanding.literalOp {l : Lzw} (h : Expanding l) (c : Code) : (literalOp c l).Sound :=
  andThen_insert_sound ((h.setFirstCode _).push _) c

theorem Expanding.definedOp {l : Lzw} (h : Expanding l) (resets : Nat) (c : Code) : (definedOp resets c l).Sound :=
  andThen_insert_sound (h.walkLoop resets _ c) c

theorem Expanding.kwkwkOp {l : Lzw} (h : Expanding l) (resets : Nat) (c : Code) : (kwkwkOp resets c l).Sound :=
  andThen_sound (h.push _) fun _ h1 => andThen_insert_sound (h1.walkLoop resets _ _) c

theorem LzwReady.firstCodeOp {l : Lzw} (h : LzwReady l) (c : Code) : (firstCodeOp c l).Sound := by
  unfold Machine.firstCodeOp
  split_ifs
  · exact (by decide : Cause.lzwBadFirstCode ∈ drainCauses)
  · exact ⟨⟨{ h.ranges with fresh := nofun }, h.result, h.depth⟩, rfl⟩

/-! ### The result of a NextIndex call -/

/-- A `NextIndex` result and its state: the reader is bounded; after an index the LZW unit is ready; a cause raised is
INPUT_EOF or one that DRAIN holds (R202, R243). -/
structure IndexSound (q : IndexResult × State) : Prop where
  bounded : readerBounded q.2.rd = true
  index : ∀ i, q.1 = .index i → LzwReady q.2.lzw
  corrupt : ∀ c, q.1 = .corrupt c → c = .inputEof ∨ c ∈ drainCauses

theorem IndexSound.ofIndex {i : Byte} {t : State} (hr : readerBounded t.rd = true) (hl : LzwReady t.lzw) :
    IndexSound (.index i, t) :=
  ⟨hr, fun _ _ => hl, nofun⟩

theorem endOfData_sound {s : State} (hr : readerBounded s.rd = true) : IndexSound (endOfData s) :=
  ⟨hr, nofun, nofun⟩

theorem raiseCorrupt_sound {c : Cause} {s : State} (hr : readerBounded s.rd = true)
    (hc : c = .inputEof ∨ c ∈ drainCauses) : IndexSound (raiseCorrupt c s) where
  bounded := hr
  index := nofun
  corrupt e he := by cases he; exact hc

theorem popAttempt_sound {a : Attempt} {s : State} (hr : readerBounded s.rd = true) (ha : a.Sound) :
    IndexSound (popAttempt a s) := by
  cases a with
  | ok l =>
    obtain ⟨⟨hranges, hresult, hdepth⟩, -⟩ := ha
    have htail : l.stack.tail.length ≤ l.stack.length := by simp
    exact .ofIndex hr ⟨hranges.of_scalars rfl, hresult, htail.trans hdepth⟩
  | raised c l => exact raiseCorrupt_sound hr (.inr ha)

theorem runFirst_sound {s : State} (h : ReadyForCodes s) (c : Code) : IndexSound (runFirst c s) := by
  have ha := h.lzw.firstCodeOp c
  unfold runFirst
  cases hop : firstCodeOp c s.lzw with
  | ok l =>
    rw [hop] at ha
    exact .ofIndex h.bounded ha.ready
  | raised e l =>
    rw [hop] at ha
    exact raiseCorrupt_sound h.bounded (.inr ha)

theorem readerBounded_empty (exhausted : Bool) :
    readerBounded { acc := 0, nbits := 0, exhausted := exhausted } = true :=
  readerBounded_reset

theorem runEnd_sound (s : State) : IndexSound (runEnd s) := by
  unfold runEnd
  split_ifs
  · exact endOfData_sound (readerBounded_empty _)
  · rcases readSubBlock_cases (discard s) with ⟨-, he⟩ | ⟨n, data, rest, -, -, he⟩ <;> simp only [he]
    · exact raiseCorrupt_sound (readerBounded_empty _) (.inl rfl)
    · split_ifs
      · exact endOfData_sound (readerBounded_empty _)
      · exact raiseCorrupt_sound (readerBounded_empty _) (.inr (by decide))

/-- The classes that insert an entry are those of a decoder that is not fresh (R85). -/
theorem fresh_of_classify {k : CodeContext} {c : Code}
    (h : classify k c = .literal ∨ classify k c = .defined ∨ classify k c = .kwkwk) : k.fresh = false := by
  by_contra hf
  rw [classify, if_pos (eq_true_of_ne_false hf)] at h
  split_ifs at h <;> simp at h

theorem nextIndexLoop_sound {turns : Nat} {s : State} {q : IndexResult × State} (h : ReadyForCodes s)
    (hq : nextIndexLoop turns s = some q) : IndexSound q := by
  obtain ⟨r, t⟩ := q
  induction turns generalizing s with
  | zero => cases hq
  | succ turns ih =>
    obtain ⟨hb, -⟩ := nextCode_bits h.lzw.ranges.widthMax h.bounded
    rcases nextIndexLoop_cases hq with ⟨-, he⟩ | ⟨-, he⟩ | ⟨c, s1, hn, hk⟩
    · rw [he]
      exact endOfData_sound hb
    · rw [he]
      exact raiseCorrupt_sound hb (.inl rfl)
    · have h1 := (h.nextCode hn).1
      have hexp (hc : classify (codeContext s1.lzw) c = .literal ∨ classify (codeContext s1.lzw) c = .defined
          ∨ classify (codeContext s1.lzw) c = .kwkwk) : Expanding s1.lzw := ⟨h1.lzw, fresh_of_classify hc⟩
      rcases hk with ⟨-, he⟩ | ⟨-, he⟩ | ⟨-, he⟩ | ⟨-, he⟩ | ⟨hc, he⟩ | ⟨hc, he⟩ | ⟨hc, he⟩
      · exact ih h1.clearTable he
      all_goals rw [he]
      · exact runEnd_sound s1
      · exact runFirst_sound h1 c
      · exact raiseCorrupt_sound h1.bounded (.inr (by decide))
      · exact popAttempt_sound h1.bounded ((hexp (.inl hc)).literalOp c)
      · exact popAttempt_sound h1.bounded ((hexp (.inr (.inl hc))).definedOp s1.resets c)
      · exact popAttempt_sound h1.bounded ((hexp (.inr (.inr hc))).kwkwkOp s1.resets c)

theorem nextIndex_sound {s : State} {q : IndexResult × State} (h : ReadyForCodes s) (hq : nextIndex s = some q) :
    IndexSound q := by
  have hresult := h.lzw.result
  rw [nextIndex] at hq
  rcases heldIndex_cases s with ⟨hr, -⟩ | ⟨c, hr, -⟩ | ⟨-, -, he⟩ | ⟨v, rest, -, hstack, he⟩
  · rw [hresult] at hr; cases hr
  · rw [hresult] at hr; cases hr
  · rw [he] at hq
    exact nextIndexLoop_sound h hq
  · rw [he] at hq
    cases hq
    have hdepth := h.lzw.depth
    rw [hstack] at hdepth
    exact .ofIndex h.bounded ⟨h.lzw.ranges.of_scalars rfl, hresult, Nat.le_of_succ_le hdepth⟩

/-! ### The ends of a step -/

theorem engineInv_of_idle {s : State} (hr : readerBounded s.rd = true) (hp : s.phase = .idle) : engineInv s = true :=
  (engineInv_iff s).mpr ⟨hr, by simp [decoding, hp], by simp [hp]⟩

theorem engineInv_of_drain {s : State} (hr : readerBounded s.rd = true) (hp : s.phase = .drain)
    (hpend : s.pend ∈ drainCauses) : engineInv s = true :=
  (engineInv_iff s).mpr ⟨hr, by simp [decoding, hp], fun _ => hpend⟩

theorem engineInv_of_ready {s : State} (h : ReadyForCodes s) (hp : s.phase ≠ .drain) : engineInv s = true :=
  (engineInv_iff s).mpr ⟨h.bounded, fun _ => h.lzw, fun hdrain => absurd hdrain hp⟩

theorem engineInv_corruptExit {c : Cause} {s : State} (hr : readerBounded s.rd = true)
    (hc : c = .inputEof ∨ c ∈ drainCauses) : engineInv (corruptExit c s) = true := by
  unfold corruptExit
  split_ifs with h
  · exact engineInv_of_idle hr rfl
  · exact engineInv_of_drain hr rfl (hc.resolve_left h)

theorem toTailWhenFull_phase_ne_drain {s : State} (hp : s.phase ≠ .drain) : (toTailWhenFull s).phase ≠ .drain := by
  unfold toTailWhenFull
  split_ifs
  · nofun
  · exact hp

theorem engineInv_fillResult {q : IndexResult × State} (h : IndexSound q) (hp : q.2.phase = .fill) :
    engineInv (fillResult q.1 q.2) = true := by
  obtain ⟨r, s⟩ := q
  cases r with
  | index i =>
    refine engineInv_of_ready ⟨?_, ?_⟩ (toTailWhenFull_phase_ne_drain (hp.trans_ne nofun))
    · simpa [fillResult] using h.bounded
    · simpa [fillResult] using h.index i rfl
  | endOfData => exact engineInv_of_idle h.bounded rfl
  | corrupt c => exact engineInv_corruptExit h.bounded (h.corrupt c rfl)

theorem engineInv_tailResult {q : IndexResult × State} (h : IndexSound q) (hp : q.2.phase = .tail) :
    engineInv (tailResult q.1 q.2) = true := by
  obtain ⟨r, s⟩ := q
  cases r with
  | index i => exact engineInv_of_ready ⟨h.bounded, h.index i rfl⟩ (hp.trans_ne nofun)
  | endOfData => exact engineInv_of_idle h.bounded rfl
  | corrupt c => exact engineInv_corruptExit h.bounded (h.corrupt c rfl)

theorem settle_engineInv {q : IndexResult × State} {t : State} (h : IndexSound q) (ht : settle q.1 q.2 = .next t) :
    engineInv t = true := by
  unfold settle at ht
  cases hp : q.2.phase <;> simp only [hp] at ht <;> cases ht
  case fill => exact engineInv_fillResult h hp
  case tail => exact engineInv_tailResult h hp

/-- `Init` for a valid root leaves the unit ready (R181, R182). -/
theorem LzwReady.of_initLzw {r : Byte} (l : Lzw) (hmin : 2 ≤ r.toNat) (hmax : r.toNat ≤ 8) :
    LzwReady (initLzw r l) := by
  have hroot : (r.setWidth 4 : BitVec 4).toNat = r.toNat := by
    rw [BitVec.toNat_setWidth, Nat.mod_eq_of_lt (by omega)]
  have hle : 2 ^ r.toNat ≤ 2 ^ 8 := Nat.pow_le_pow_right (by decide) hmax
  have hclear : (1#13 <<< r.toNat).toNat = 2 ^ r.toNat := by
    rw [BitVec.toNat_shiftLeft, BitVec.toNat_ofNat, Nat.one_mod, Nat.one_shiftLeft, Nat.mod_eq_of_lt (by omega)]
  have hend : (1#13 <<< r.toNat + 1).toNat = (1#13 <<< r.toNat).toNat + 1 := by bv_omega
  exact
    { ranges :=
        .of_resetTable (by rw [hroot]; exact hmin) (by rw [hroot]; exact hmax) (by rw [hroot]; exact hclear) hend
      result := rfl
      depth := Nat.zero_le _ }

theorem engineInv_rootStep {s : State} (h : engineInv s = true) : engineInv (rootStep s) = true := by
  obtain ⟨hr, -, -⟩ := (engineInv_iff s).mp h
  unfold rootStep
  rcases takeByte_cases s with ⟨-, ht⟩ | ⟨b, rest, -, ht⟩ <;> simp only [ht]
  · exact engineInv_of_idle hr rfl
  · split_ifs with hbad
    · exact engineInv_of_drain (readerBounded_empty _) rfl (by decide : Cause.badRoot ∈ drainCauses)
    · obtain ⟨hmin, hmax⟩ := not_or.mp hbad
      have hinit := LzwReady.of_initLzw s.lzw (Nat.not_lt.mp hmin) (Nat.not_lt.mp hmax)
      refine engineInv_of_ready ⟨readerBounded_empty _, hinit⟩ ?_
      simp only [updateLzwState_phase, startDecoding_phase]
      split_ifs <;> nofun

theorem engineInv_drainStep {s : State} (h : engineInv s = true) (hp : s.phase = .drain) :
    engineInv (drainStep s) = true := by
  obtain ⟨-, -, hpend⟩ := (engineInv_iff s).mp h
  have hempty := readerBounded_empty
  unfold drainStep
  rcases drainRead_cases (discard s) with ⟨-, he⟩ | ⟨-, ⟨-, he⟩ | ⟨n, data, rest, -, -, he⟩⟩ <;> rw [he]
  · exact engineInv_of_idle (hempty _) rfl
  · exact engineInv_of_idle (hempty _) rfl
  · split_ifs
    · exact engineInv_of_idle (hempty _) rfl
    · exact engineInv_of_drain (hempty _) hp (hpend hp)

/-! ### The step -/

theorem engineStep_engineInv {s t : State} (h : engineInv s = true) (ht : engineStep s = .next t) :
    engineInv t = true := by
  by_cases hd : decoding s = true
  · have hready := readyForCodes_of_engineInv h hd
    obtain ⟨q, hq, he⟩ := engineStep_of_decoding hd hready
    exact settle_engineInv (nextIndex_sound hready hq) (he.symm.trans ht)
  · cases hp : s.phase with
    | idle => rw [engineStep_idle hp] at ht; cases ht; exact h
    | root => rw [engineStep_of_root hp] at ht; cases ht; exact engineInv_rootStep h
    | drain => rw [engineStep_of_drain hp] at ht; cases ht; exact engineInv_drainStep h hp
    | fill => simp [decoding, hp] at hd
    | tail => simp [decoding, hp] at hd

theorem engineMove_engineInv {s t : State} (h : engineInv s = true) (ht : engineMove s = .next t) :
    engineInv t = true := by
  rcases engineMove_cases ht with hstep | ⟨rfl, -, -⟩
  · exact engineStep_engineInv h hstep
  · exact h

theorem engineInv_abortFrame {s : State} (h : engineInv s = true) : engineInv (abortFrame s) = true := by
  obtain ⟨hr, -, -⟩ := (engineInv_iff s).mp h
  exact engineInv_of_idle (by simpa using hr) (abortFrame_phase s)

theorem engineInv_startFrame {s : State} (h : engineInv s = true) : engineInv (startFrame s) = true := by
  obtain ⟨hr, -, -⟩ := (engineInv_iff s).mp h
  unfold startFrame
  split_ifs
  · exact (engineInv_iff _).mpr ⟨hr, nofun, nofun⟩
  · exact h

/-- A host operation reaches neither reader nor LZW unit; ABORT and START leave a phase that asks nothing of them. -/
theorem HostEffect.engineInv {i : Instr} {s t : State} (h : HostEffect i s t) (hs : engineInv s = true) :
    engineInv t = true := by
  cases h with
  | replied | ignored | configured | cleared | irqEnabled | loaded | refused => exact hs
  | aborted => exact engineInv_abortFrame hs
  | restarted => exact engineInv_startFrame (engineInv_abortFrame hs)
  | started => exact engineInv_startFrame hs

/-- Settles O48, by who acts in the step. -/
theorem engineInvariantKept : Obligations.EngineInvariantKept := by
  intro s t hs h
  rcases step_cases_by_agent h with ⟨agenda, he⟩ | ⟨w, rest, -, he⟩ | ⟨rest, -, rfl⟩ | ⟨_, _, _, _, _, rfl⟩
  · exact engineMove_engineInv (s := { s with agenda := agenda }) hs he
  · exact he.engineInv hs
  · exact engineInv_reset
  · exact hs

end Sys2Proof.Machine
end

section
/-! Bytes behind those that a step takes: every part of an engine step gives the same with more bytes appended to the
input, unless it met the end of the bytes presented (R150). `feedInput` is the appending. -/

namespace Sys2Proof.Machine

section
variable (more : List Byte)

/-! ### Reading with more bytes behind -/

theorem tookBytes_feedInput (n : Nat) (rest : List Byte) (s : State) :
    tookBytes n (rest ++ more) (feedInput more s) = feedInput more (tookBytes n rest s) := rfl

theorem takeByte_feedInput {b : Byte} {rest : List Byte} {s : State} (hin : s.input = b :: rest) :
    takeByte (feedInput more s) = (some b, feedInput more (tookBytes 1 rest s)) := by
  rw [takeByte_cons (rest := rest ++ more) (by rw [feedInput_input, hin, List.cons_append]), tookBytes_feedInput]

theorem readPayload_feedInput (n : Byte) (s : State) :
    (readPayload n s).1 = .eof
      ∨ readPayload n (feedInput more s) = ((readPayload n s).1, feedInput more (readPayload n s).2) := by
  rcases readPayload_cases n s with ⟨-, h⟩ | ⟨data, rest, hd, hin, h⟩
  · exact .inl (by rw [h])
  · refine .inr ?_
    rw [h, readPayload_enough n data (rest ++ more) _ hd (by rw [feedInput_input, hin, List.append_assoc])]
    rfl

theorem readSubBlock_feedInput (s : State) :
    (readSubBlock s).1 = .eof
      ∨ readSubBlock (feedInput more s) = ((readSubBlock s).1, feedInput more (readSubBlock s).2) := by
  rcases takeByte_cases s with ⟨-, ht⟩ | ⟨n, rest, hin, -⟩
  · exact .inl (by rw [readSubBlock, ht])
  · have hin' : (feedInput more s).input = n :: (rest ++ more) := by rw [feedInput_input, hin, List.cons_append]
    rw [readSubBlock_cons hin, readSubBlock_cons hin', tookBytes_feedInput]
    exact readPayload_feedInput more n _

theorem refill_feedInput (n : Byte) (data : List Byte) (s : State) :
    refill n data (feedInput more s) = feedInput more (refill n data s) := by
  unfold refill
  split_ifs <;> rfl

theorem nextCode_feedInput (w : Nat) (s : State) :
    (nextCode w s).1 = .corrupt
      ∨ nextCode w (feedInput more s) = ((nextCode w s).1, feedInput more (nextCode w s).2) := by
  induction hlen : s.input.length using Nat.strong_induction_on generalizing s with
  | _ len ih =>
    subst hlen
    rw [nextCode_eq w s, nextCode_eq w (feedInput more s), feedInput_rd]
    split_ifs
    · exact .inr rfl
    · exact .inr rfl
    · have hsub := readSubBlock_feedInput more s
      rcases hr : readSubBlock s with ⟨_ | ⟨n, data⟩, s1⟩
      · exact .inl rfl
      · rw [hr] at hsub
        have hless := readSubBlock_shorter hr
        rw [hsub.resolve_left nofun]
        simp only [refill_feedInput]
        exact ih _ (by rwa [refill_input]) _ rfl

/-! ### A NextIndex call with more bytes behind -/

/-- The index result `q'`, got with `more` bytes behind, is `q` with the bytes still there, unless `q` met the end
of the input. -/
def SameIndex (q q' : IndexResult × State) : Prop :=
  q.1 = .corrupt .inputEof ∨ q' = (q.1, feedInput more q.2)

theorem popAttempt_feedInput (a : Attempt) (s : State) :
    popAttempt a (feedInput more s) = ((popAttempt a s).1, feedInput more (popAttempt a s).2) := by
  cases a <;> rfl

theorem runFirst_feedInput (c : Code) (s : State) :
    runFirst c (feedInput more s) = ((runFirst c s).1, feedInput more (runFirst c s).2) := by
  unfold runFirst
  rw [feedInput_lzw]
  cases firstCodeOp c s.lzw <;> rfl

theorem runEnd_sameIndex (s : State) : SameIndex more (runEnd s) (runEnd (feedInput more s)) := by
  have hdiscard : discard (feedInput more s) = feedInput more (discard s) := rfl
  unfold runEnd
  rw [hdiscard, feedInput_rd]
  split_ifs
  · exact .inr rfl
  · have hsub := readSubBlock_feedInput more (discard s)
    rcases hr : readSubBlock (discard s) with ⟨_ | ⟨n, data⟩, s1⟩
    · exact .inl rfl
    · rw [hr] at hsub
      rw [hsub.resolve_left nofun]
      dsimp only
      split_ifs <;> exact .inr rfl

theorem nextIndexLoop_feedInput {turns : Nat} {s : State} {q : IndexResult × State}
    (h : nextIndexLoop turns s = some q) :
    q.1 = .corrupt .inputEof ∨ nextIndexLoop turns (feedInput more s) = some (q.1, feedInput more q.2) := by
  induction turns generalizing s with
  | zero => cases h
  | succ turns ih =>
    rw [nextIndexLoop] at h ⊢
    have hcode := nextCode_feedInput more s.lzw.codeSize.toNat s
    rcases hn : nextCode s.lzw.codeSize.toNat s with ⟨c | _ | _, s1⟩ <;> rw [hn] at h hcode
    · rw [feedInput_lzw, hcode.resolve_left nofun]
      simp only [feedInput_lzw]
      cases hk : classify (codeContext s1.lzw) c <;> simp only [hk] at h ⊢
      case clear => exact ih h
      all_goals obtain rfl := Option.some.inj h
      case endOfImage => exact (runEnd_sameIndex more s1).imp_right (congrArg some)
      case first => exact .inr (congrArg some (runFirst_feedInput more c s1))
      case badFirst => exact .inr rfl
      all_goals exact .inr (congrArg some (popAttempt_feedInput more _ s1))
    · obtain rfl := Option.some.inj h
      rw [feedInput_lzw, hcode.resolve_left nofun]
      exact .inr rfl
    · obtain rfl := Option.some.inj h
      exact .inl rfl

/-- With more input a call has more turns, which change nothing. -/
theorem readIndex_feedInput {s : State} {q : IndexResult × State} (h : readIndex s = some q) :
    q.1 = .corrupt .inputEof ∨ readIndex (feedInput more s) = some (q.1, feedInput more q.2) := by
  have hturns : turnsFor s ≤ turnsFor (feedInput more s) := by
    simp only [turnsFor, feedInput_rd, feedInput_input, List.length_append]
    omega
  exact (nextIndexLoop_feedInput more h).imp_right (nextIndexLoop_mono hturns)

/-! ### The ends of a step with more bytes behind -/

/-- The frame has finished with INPUT_EOF. -/
def EndedByEof (t : State) : Prop := t.phase = .idle ∧ t.regs.cause = .inputEof

/-- The outcome `o'`, got with `more` bytes behind, is `o` with the bytes still there, unless `o` met the end of the
input. -/
def SameOutcome (o o' : Host.Outcome State Fault Refusal) : Prop :=
  ∀ t, o = .next t → EndedByEof t ∨ o' = .next (feedInput more t)

theorem sameOutcome_next (t : State) : SameOutcome more (.next t) (.next (feedInput more t)) := by
  rintro _ ⟨⟩
  exact .inr rfl

theorem sameOutcome_fault (f : Fault) (o : Host.Outcome State Fault Refusal) : SameOutcome more (.fault f) o := by
  intro t h
  cases h

/-- A step over at the end of the input presented has nothing to compare with. -/
theorem sameOutcome_eof (s : State) (o : Host.Outcome State Fault Refusal) :
    SameOutcome more (.next (finish .inputEof s)) o := by
  rintro _ ⟨⟩
  exact .inl ⟨rfl, rfl⟩

theorem corruptExit_feedInput (c : Cause) (s : State) :
    corruptExit c (feedInput more s) = feedInput more (corruptExit c s) := by
  unfold corruptExit
  split_ifs <;> rfl

theorem toTailWhenFull_feedInput (s : State) :
    toTailWhenFull (feedInput more s) = feedInput more (toTailWhenFull s) := by
  unfold toTailWhenFull
  rw [feedInput_regs, feedInput_cfg]
  split_ifs <;> rfl

theorem fillResult_feedInput (r : IndexResult) (s : State) :
    fillResult r (feedInput more s) = feedInput more (fillResult r s) := by
  cases r with
  | index i => exact toTailWhenFull_feedInput more (writePixel i s)
  | endOfData => rfl
  | corrupt c => exact corruptExit_feedInput more c s

theorem tailResult_feedInput (r : IndexResult) (s : State) :
    tailResult r (feedInput more s) = feedInput more (tailResult r s) := by
  cases r with
  | index i => rfl
  | endOfData => rfl
  | corrupt c => exact corruptExit_feedInput more c s

theorem settle_feedInput (r : IndexResult) (s : State) :
    SameOutcome more (settle r s) (settle r (feedInput more s)) := by
  unfold settle
  rw [feedInput_phase]
  cases s.phase with
  | fill => rw [fillResult_feedInput]; exact sameOutcome_next more _
  | tail => rw [tailResult_feedInput]; exact sameOutcome_next more _
  | idle | root | drain => exact sameOutcome_fault more _ _

/-- A step whose call met the end of the input ends the frame so (R243). -/
theorem settle_endedByEof {s t : State} (h : settle (.corrupt .inputEof) s = .next t) : EndedByEof t := by
  unfold settle at h
  cases hp : s.phase <;> simp only [hp] at h <;> cases h
  all_goals exact ⟨rfl, rfl⟩

theorem settle_sameOutcome {q q' : IndexResult × State} (h : SameIndex more q q') :
    SameOutcome more (settle q.1 q.2) (settle q'.1 q'.2) := by
  rcases h with heof | rfl
  · rw [heof]
    exact fun t ht => .inl (settle_endedByEof ht)
  · exact settle_feedInput more q.1 q.2

theorem readOn_sameOutcome (s : State) : SameOutcome more (readOn s) (readOn (feedInput more s)) := by
  unfold readOn
  cases hr : readIndex s with
  | none => exact sameOutcome_fault more _ _
  | some q =>
    rcases readIndex_feedInput more hr with heof | he
    · obtain ⟨_, s1⟩ := q
      subst heof
      exact fun t ht => .inl (settle_endedByEof ht)
    · rw [he]
      exact settle_feedInput more q.1 q.2

/-! ### The instructions of the stream with more bytes behind -/

theorem exec_decodeCode_sameOutcome (k : CodeContext) (c : Code) (s : State) :
    SameOutcome more (exec (decodeCode k c) s) (exec (decodeCode k c) (feedInput more s)) := by
  have hpop (a : Attempt) := settle_sameOutcome more (.inr (popAttempt_feedInput more a s))
  unfold decodeCode
  cases classify k c with
  | clear => exact readOn_sameOutcome more (clearTable s)
  | endOfImage => exact settle_sameOutcome more (runEnd_sameIndex more s)
  | first => exact settle_sameOutcome more (.inr (runFirst_feedInput more c s))
  | badFirst => exact settle_sameOutcome more (q := runBadFirst c s) (.inr rfl)
  | literal => exact hpop (literalOp c s.lzw)
  | defined => exact hpop (definedOp s.resets c s.lzw)
  | kwkwk => exact hpop (kwkwkOp s.resets c s.lzw)

theorem execSubTerminator_sameOutcome (s : State) :
    SameOutcome more (execSubTerminator s) (execSubTerminator (feedInput more s)) := by
  unfold execSubTerminator
  rw [feedInput_phase]
  cases s.phase with
  | fill | tail => exact readOn_sameOutcome more (setExhausted s)
  | drain => exact sameOutcome_next more (finish s.pend (setExhausted s))
  | idle | root => exact sameOutcome_fault more _ _

theorem refillAndReadOn_sameOutcome (n : Byte) (s : State) :
    SameOutcome more (refillAndReadOn n s) (refillAndReadOn n (feedInput more s)) := by
  have hp := readPayload_feedInput more n s
  unfold refillAndReadOn
  rcases hr : readPayload n s with ⟨_ | ⟨_, data⟩, s1⟩
  · exact fun t ht => .inl (settle_endedByEof ht)
  · rw [hr] at hp
    rw [hp.resolve_left nofun]
    exact readOn_sameOutcome more { s1 with rd := appendData s1.rd data }

theorem skipPayload_sameOutcome (n : Byte) (s : State) :
    SameOutcome more (skipPayload n s) (skipPayload n (feedInput more s)) := by
  have hp := readPayload_feedInput more n s
  unfold skipPayload
  rcases hr : readPayload n s with ⟨_ | ⟨_, data⟩, s1⟩
  · exact sameOutcome_eof more s1 _
  · rw [hr] at hp
    rw [hp.resolve_left nofun]
    exact sameOutcome_next more s1

theorem execSubData_sameOutcome (n : Byte) (s : State) :
    SameOutcome more (execSubData n s) (execSubData n (feedInput more s)) := by
  unfold execSubData
  rw [feedInput_phase]
  cases s.phase with
  | fill | tail => exact refillAndReadOn_sameOutcome more n s
  | drain => exact skipPayload_sameOutcome more n s
  | idle | root => exact sameOutcome_fault more _ _

theorem exec_decodeSub_sameOutcome (n : Byte) (s : State) :
    SameOutcome more (exec (decodeSub n) s) (exec (decodeSub n) (feedInput more s)) := by
  unfold decodeSub
  split_ifs
  · exact execSubTerminator_sameOutcome more s
  · exact execSubData_sameOutcome more n s

theorem execRootValid_sameOutcome (r : Byte) (s : State) :
    SameOutcome more (execRootValid r s) (execRootValid r (feedInput more s)) := by
  unfold execRootValid
  rw [feedInput_phase]
  cases s.phase with
  | root => exact sameOutcome_next more _
  | idle | fill | tail | drain => exact sameOutcome_fault more _ _

theorem execRootInvalid_sameOutcome (r : Byte) (s : State) :
    SameOutcome more (execRootInvalid r s) (execRootInvalid r (feedInput more s)) := by
  unfold execRootInvalid
  rw [feedInput_phase]
  cases s.phase with
  | root => exact sameOutcome_next more { reinit (setRootByte r s) with pend := .badRoot, phase := .drain }
  | idle | fill | tail | drain => exact sameOutcome_fault more _ _

theorem exec_decodeRoot_sameOutcome (r : Byte) (s : State) :
    SameOutcome more (exec (decodeRoot r) s) (exec (decodeRoot r) (feedInput more s)) := by
  unfold decodeRoot
  split_ifs
  · exact execRootValid_sameOutcome more r s
  · exact execRootInvalid_sameOutcome more r s

/-! ### The step with more bytes behind -/

/-- The step that a fetch from `s` begins, against the one begun with more bytes behind. -/
def SameStep (s : State) (f f' : Fetch) : Prop :=
  SameOutcome more (f.run s) (f'.run (feedInput more s))

theorem fetchCode_sameStep (s : State) : SameStep more s (fetchCode s) (fetchCode (feedInput more s)) := by
  unfold fetchCode
  rw [feedInput_rd, feedInput_lzw]
  split_ifs
  · exact exec_decodeCode_sameOutcome more _ _ { s with rd := (takeCode s.lzw.codeSize.toNat s.rd).2 }
  · exact settle_sameOutcome more (q := streamEnded s) (.inr rfl)
  · rcases takeByte_cases s with ⟨-, ht⟩ | ⟨n, rest, hin, ht⟩ <;> simp only [ht]
    · exact fun t ht => .inl (settle_endedByEof ht)
    · rw [takeByte_feedInput more hin]
      exact exec_decodeSub_sameOutcome more n (tookBytes 1 rest s)

theorem fetchIndex_sameStep (s : State) : SameStep more s (fetchIndex s) (fetchIndex (feedInput more s)) := by
  have hheld : heldIndex (feedInput more s) = (heldIndex s).map fun q => (q.1, feedInput more q.2) := by
    unfold heldIndex
    rw [feedInput_lzw]
    cases s.lzw.result with
    | none => dsimp only; split_ifs <;> rfl
    | endOfData | corrupt => rfl
  unfold fetchIndex
  rw [hheld]
  cases heldIndex s with
  | none => exact fetchCode_sameStep more s
  | some q => exact settle_feedInput more q.1 q.2

theorem fetchRoot_sameStep (s : State) : SameStep more s (fetchRoot s) (fetchRoot (feedInput more s)) := by
  unfold fetchRoot
  rcases takeByte_cases s with ⟨-, ht⟩ | ⟨b, rest, hin, ht⟩ <;> simp only [ht]
  · exact sameOutcome_eof more s _
  · rw [takeByte_feedInput more hin]
    exact exec_decodeRoot_sameOutcome more b (tookBytes 1 rest s)

theorem fetchDrain_sameStep (s : State) : SameStep more s (fetchDrain s) (fetchDrain (feedInput more s)) := by
  have hdiscard : discard (feedInput more s) = feedInput more (discard s) := rfl
  unfold fetchDrain
  rw [hdiscard, feedInput_rd]
  split_ifs
  · exact sameOutcome_next more (finish s.pend (discard s))
  · rcases takeByte_cases (discard s) with ⟨-, ht⟩ | ⟨n, rest, hin, ht⟩ <;> simp only [ht]
    · exact sameOutcome_eof more (discard s) _
    · rw [takeByte_feedInput more hin]
      exact exec_decodeSub_sameOutcome more n (tookBytes 1 rest (discard s))

theorem engineStep_sameOutcome (s : State) :
    SameOutcome more (engineStep s) (engineStep (feedInput more s)) := by
  rw [engineStep_eq_run, engineStep_eq_run]
  unfold fetch
  rw [feedInput_phase]
  cases s.phase with
  | idle => exact sameOutcome_next more s
  | root => exact fetchRoot_sameStep more s
  | fill | tail => exact fetchIndex_sameStep more s
  | drain => exact fetchDrain_sameStep more s

/-- A move that is not a wait is a step that did not meet the end of the input. -/
theorem engineMove_of_moved {s t : State} (heof : s.inEof = false) (h : engineMove s = .next t) (hne : t ≠ s) :
    engineStep s = .next t ∧ ranOutOfInput s t = false := by
  have hstep : engineStep s = .next t := (engineMove_cases h).resolve_right fun ⟨ht, _⟩ => hne ht
  refine ⟨hstep, Bool.eq_false_iff.mpr fun hout => hne ?_⟩
  rw [engineMove_of_ranOut hstep hout, heof] at h
  exact (Host.Outcome.next.inj h).symm

theorem EndedByEof.ranOutOfInput {s t : State} (h : EndedByEof t) (hbusy : s.phase ≠ .idle) :
    ranOutOfInput s t = true := by
  simp [Machine.ranOutOfInput, hbusy, h.1, h.2]

theorem engineMove_feedInput {s t : State} (heof : s.inEof = false) (h : engineMove s = .next t) (hne : t ≠ s) :
    engineMove (feedInput more s) = .next (feedInput more t) := by
  obtain ⟨hstep, hout⟩ := engineMove_of_moved heof h hne
  have hbusy : s.phase ≠ .idle := fun hp => hne (Host.Outcome.next.inj (h.symm.trans (engineMove_idle hp)))
  rcases engineStep_sameOutcome more s t hstep with hend | hmore
  · rw [hend.ranOutOfInput hbusy] at hout
    cases hout
  · have hout' : ranOutOfInput (feedInput more s) (feedInput more t) = false := hout
    simp [engineMove, hmore, hout']

end

theorem feedInput_of_open (more : List Byte) {s : State} (h : s.inEof = false) :
    feedInput more s = { s with input := s.input ++ more } := by
  rw [feedInput, h]

/-- Settles O53: the move is a step that did not meet the end of the input, and such a step is the same with more bytes
behind. -/
theorem engineNeverLooksAhead : Obligations.EngineNeverLooksAhead := by
  intro s t more heof h hne
  have heof' : t.inEof = false := (congrArg (·.inEof) (engineMove_engineFrame h).host).trans heof
  rw [← feedInput_of_open more heof, ← feedInput_of_open more heof']
  exact engineMove_feedInput more heof h hne

end Sys2Proof.Machine
end

section
/-! The operations of the LZW unit on the codes of a frame: table reset, insertion, the chain walk along a path, and
what each code class makes of them (R182 to R199). -/

namespace Sys2Proof.Machine

/-! ### Insertion and growth (R195, R197) -/

theorem insertEntry_of_room {l : Lzw} (h : l.maxCode.toNat < 4096) :
    insertEntry l = grow { l with
      table := cellSet l.maxCode.toNat { pre := l.oldCode, suf := l.firstCode } l.table
      maxCode := l.maxCode + 1 } :=
  if_pos h

theorem insertEntry_of_full {l : Lzw} (h : 4096 ≤ l.maxCode.toNat) : insertEntry l = l :=
  if_neg (Nat.not_lt.mpr h)

theorem grow_table (l : Lzw) : (grow l).table = l.table := by rw [grow_frame]

theorem grow_maxCode (l : Lzw) : (grow l).maxCode = l.maxCode := by rw [grow_frame]

theorem insertEntry_table_of_room {l : Lzw} (h : l.maxCode.toNat < 4096) :
    (insertEntry l).table = cellSet l.maxCode.toNat { pre := l.oldCode, suf := l.firstCode } l.table := by
  rw [insertEntry_of_room h, grow_table]

theorem insertEntry_maxCode_of_room {l : Lzw} (h : l.maxCode.toNat < 4096) :
    (insertEntry l).maxCode = l.maxCode + 1 := by
  rw [insertEntry_of_room h, grow_maxCode]

@[simp] theorem insertEntry_clearCode (l : Lzw) : (insertEntry l).clearCode = l.clearCode := by rw [insertEntry_frame]

@[simp] theorem insertEntry_firstCode (l : Lzw) : (insertEntry l).firstCode = l.firstCode := by rw [insertEntry_frame]

@[simp] theorem insertEntry_result (l : Lzw) : (insertEntry l).result = l.result := by rw [insertEntry_frame]

@[simp] theorem insertEntry_stack (l : Lzw) : (insertEntry l).stack = l.stack := by rw [insertEntry_frame]

/-- Insertion does not read the stack. -/
theorem insertEntry_setStack (l : Lzw) (st : List Byte) :
    insertEntry { l with stack := st } = { insertEntry l with stack := st } := by
  unfold insertEntry grow
  dsimp only
  split_ifs <;> rfl

/-- Settles O27: the slot by the list's read after write, the scalars by the two branches of `grow`. -/
theorem insertAddsOneEntry : Obligations.InsertAddsOneEntry := by
  refine fun l => ⟨fun hroom => ⟨_, rfl, ?_, fun n hn => ?_, ?_⟩, insertEntry_of_full⟩
  · rw [insertEntry_table_of_room hroom, cellGet_cellSet_same]
  · rw [insertEntry_table_of_room hroom, cellGet_cellSet_other hn]
  · rw [insertEntry_table_of_room hroom, insertEntry_of_room hroom]
    unfold grow
    split_ifs <;> rfl

/-! ### Table reset (R181, R182) -/

/-- The constants of R87 for a valid root byte. -/
theorem initLzw_constants {r : Byte} (l : Lzw) (hmin : 2 ≤ r.toNat) (hmax : r.toNat ≤ 8) :
    (initLzw r l).rootSize.toNat = r.toNat ∧ (initLzw r l).clearCode.toNat = 2 ^ r.toNat
      ∧ (initLzw r l).codeSize.toNat = r.toNat + 1 := by
  have hroot : (initLzw r l).rootSize.toNat = r.toNat := by
    simp only [initLzw, resetTable, BitVec.toNat_setWidth]
    omega
  have hwidth : (initLzw r l).codeSize.toNat = (initLzw r l).rootSize.toNat + 1 := by
    have hsum : (initLzw r l).codeSize = (initLzw r l).rootSize + 1 := rfl
    bv_omega
  exact ⟨hroot, hroot ▸ (LzwReady.of_initLzw l hmin hmax).ranges.clearCode, hroot ▸ hwidth⟩

/-- Settles O33: the roots by what `writeRoots` writes, the constants of `Init` by the ranges it sets. -/
theorem resetTableStartsOver : Obligations.ResetTableStartsOver := by
  refine ⟨fun l => ⟨rfl, fun i hi => ?_, fun i hi => ?_⟩, fun l r hmin hmax => ⟨_, rfl, ?_⟩⟩
  · exact (cellGet_writeRoots _ i l.table).trans (if_pos hi)
  · exact (cellGet_writeRoots _ i l.table).trans (if_neg (Nat.not_lt.mpr hi))
  · obtain ⟨hroot, hclear, hwidth⟩ := initLzw_constants l hmin hmax
    have hranges := (LzwReady.of_initLzw l hmin hmax).ranges
    refine ⟨hroot, hclear, hclear ▸ hranges.endCode, hclear ▸ hranges.fresh rfl, hwidth, ?_, rfl, rfl, rfl, rfl, rfl⟩
    rw [hranges.maxCodeSize, hwidth, Nat.pow_succ, Nat.mul_comm]

/-! ### The chain walk along a path (R193) -/

/-- A path stays one when slots are added at the top of the table and when fields that no walk reads change. -/
theorem WalksTo.extend {resets : Nat} {l l' : Lzw} {c d : Code} {syms : List Byte} (hclear : l'.clearCode = l.clearCode)
    (hmax : l.maxCode.toNat ≤ l'.maxCode.toNat)
    (hslot : ∀ n : Code, n.toNat < l.maxCode.toNat → readSlot resets l' n = readSlot resets l n)
    (hw : WalksTo resets l c syms d) : WalksTo resets l' c syms d := by
  induction hw with
  | here c => exact .here c
  | through c syms d hc hm hpre _ ih =>
    have hs := hslot c hm
    rw [← hs] at hpre ih ⊢
    exact .through c syms d (hclear ▸ hc) (hm.trans_le hmax) hpre ih

/-- A walk that has room for the symbols of a path gets to the path's end, with the symbols on the stack. -/
theorem walkLoop_of_walksTo {resets : Nat} {l : Lzw} {c d : Code} {syms : List Byte} (hw : WalksTo resets l c syms d)
    (turns : Nat) {st : List Byte} (hroom : st.length + syms.length ≤ 4096) :
    walkLoop resets (turns + syms.length) c { l with stack := st } =
      walkLoop resets turns d { l with stack := syms.reverse ++ st } := by
  induction hw generalizing st with
  | here c => rfl
  | through c syms d hclear hmax hpre hw ih =>
    rw [List.length_cons] at hroom
    have hlink := walkLoop_link (resets := resets) (turns := turns + syms.length) (l := { l with stack := st }) hclear
      hmax hpre (show st.length < 4096 by omega)
    have hnext := ih (st := (readSlot resets l c).suf :: st) (by rw [List.length_cons]; omega)
    rw [List.length_cons, ← Nat.add_assoc, List.reverse_cons, List.append_assoc]
    exact hlink.trans hnext

theorem length_reverse_append (syms st : List Byte) : (syms.reverse ++ st).length = st.length + syms.length := by
  rw [List.length_append, List.length_reverse, Nat.add_comm]

section
variable {resets : Nat} {l : Lzw} {c d : Code} {syms : List Byte}

/-- The walk along a path, with a turn left at its end. -/
theorem walk_of_walksTo (hw : WalksTo resets l c syms d) (hroom : l.stack.length + syms.length ≤ 4096) :
    ∃ turns, walk resets c l = walkLoop resets (turns + 1) d { l with stack := syms.reverse ++ l.stack } := by
  refine ⟨4096 - syms.length, ?_⟩
  have hturns : 4096 + 1 = 4096 - syms.length + 1 + syms.length := by omega
  exact (congrArg (walkLoop resets · c l) hturns).trans (walkLoop_of_walksTo hw _ hroom)

/-- A path to a root: the walk pushes the root last. -/
theorem walk_to_root (hw : WalksTo resets l c syms d) (hd : d.toNat < l.clearCode.toNat)
    (hroom : l.stack.length + syms.length < 4096) :
    walk resets c l =
      .ok { l with firstCode := d.setWidth 8, stack := d.setWidth 8 :: (syms.reverse ++ l.stack) } := by
  obtain ⟨turns, h⟩ := walk_of_walksTo hw hroom.le
  rw [h]
  exact walkLoop_root hd ((length_reverse_append _ _).trans_lt hroom)

/-- A path to an undefined slot raises. -/
theorem walk_to_undefined (hw : WalksTo resets l c syms d) (hclear : l.clearCode.toNat ≤ d.toNat)
    (hd : l.maxCode.toNat ≤ d.toNat) (hroom : l.stack.length + syms.length ≤ 4096) :
    walk resets c l = .raised .lzwUndefinedCode { l with stack := syms.reverse ++ l.stack } := by
  obtain ⟨turns, h⟩ := walk_of_walksTo hw hroom
  rw [h]
  exact walkLoop_undefined hclear hd

/-- A defined slot that links to itself ends the walk, after its symbol has been pushed. -/
theorem walkLoop_selfPrefix {turns : Nat} (hclear : l.clearCode.toNat ≤ c.toNat) (hmax : c.toNat < l.maxCode.toNat)
    (hself : (readSlot resets l c).pre = c) (hroom : l.stack.length < 4096) :
    walkLoop resets (turns + 1) c l =
      .raised .lzwSelfPrefix { l with stack := (readSlot resets l c).suf :: l.stack } := by
  rw [walkLoop, if_pos hclear, if_neg (Nat.not_le.mpr hmax), push_room _ hroom, andThen_ok, if_pos hself]

/-- A path to a slot that links to itself raises. -/
theorem walk_to_selfPrefix (hw : WalksTo resets l c syms d) (hclear : l.clearCode.toNat ≤ d.toNat)
    (hd : d.toNat < l.maxCode.toNat) (hself : (readSlot resets l d).pre = d)
    (hroom : l.stack.length + syms.length < 4096) :
    walk resets c l =
      .raised .lzwSelfPrefix { l with stack := (readSlot resets l d).suf :: (syms.reverse ++ l.stack) } := by
  obtain ⟨turns, h⟩ := walk_of_walksTo hw hroom.le
  rw [h]
  exact walkLoop_selfPrefix hclear hd hself ((length_reverse_append _ _).trans_lt hroom)

end

/-! ### The code classes (R188 to R192) -/

/-- The unit when an expansion has come to the root `d`, with `rest` on the stack below it (R193). -/
def atRoot (d : Byte) (rest : List Byte) (l : Lzw) : Lzw := { l with firstCode := d, stack := rest }

/-- The unit after an expansion of code `c` that came to the root `d`, once the root has been popped (R195, R198,
R199). -/
def expanded (c : Code) (d : Byte) (rest : List Byte) (l : Lzw) : Lzw := insertThenOld c (atRoot d rest l)

theorem popAttempt_insertThenOld (c : Code) (d : Byte) (rest : List Byte) (l : Lzw) (s : State) :
    popAttempt (.ok (insertThenOld c { l with firstCode := d, stack := d :: rest })) s =
      (.index d, { s with lzw := expanded c d rest l }) := by
  have hd := insertEntry_setStack { l with firstCode := d } (d :: rest)
  have hrest := insertEntry_setStack { l with firstCode := d } rest
  simp only [insertThenOld, expanded, atRoot, hd, hrest, popAttempt_ok]
  rfl

theorem runFirst_of_defined {s : State} {c : Code} (h : c.toNat < s.lzw.maxCode.toNat) :
    runFirst c s =
      (.index (c.setWidth 8),
        { s with lzw := { s.lzw with fresh := false, oldCode := c, firstCode := c.setWidth 8 } }) := by
  rw [runFirst, firstCodeOp, if_neg (Nat.not_le.mpr h)]

theorem runFirst_of_undefined {s : State} {c : Code} (h : s.lzw.maxCode.toNat ≤ c.toNat) :
    runFirst c s = raiseCorrupt .lzwBadFirstCode s := by
  rw [runFirst, firstCodeOp, if_pos h]

theorem runLiteral_of_room {s : State} (c : Code) (hroom : s.lzw.stack.length < 4096) :
    runLiteral c s = (.index (c.setWidth 8), { s with lzw := expanded c (c.setWidth 8) s.lzw.stack s.lzw }) := by
  have hpush := push_room (l := { s.lzw with firstCode := c.setWidth 8 }) (c.setWidth 8) hroom
  rw [runLiteral, literalOp, hpush, andThen_ok]
  exact popAttempt_insertThenOld c _ s.lzw.stack s.lzw s

section
variable {s : State} {c d : Code} {syms : List Byte}

theorem runDefined_to_root (hstack : s.lzw.stack = []) (hw : WalksTo s.resets s.lzw c syms d)
    (hd : d.toNat < s.lzw.clearCode.toNat) (hroom : syms.length < 4096) :
    runDefined c s = (.index (d.setWidth 8), { s with lzw := expanded c (d.setWidth 8) syms.reverse s.lzw }) := by
  rw [runDefined, definedOp, walk_to_root hw hd (by rw [hstack, List.length_nil]; omega), andThen_ok, hstack,
    List.append_nil]
  exact popAttempt_insertThenOld c _ _ s.lzw s

/-- DEFINED, when its walk raises. -/
theorem runDefined_raised {e : Cause} {l : Lzw} (h : walk s.resets c s.lzw = .raised e l) :
    runDefined c s = raiseCorrupt e { s with lzw := l } := by
  rw [runDefined, definedOp, h]
  rfl

/-- The unit in which KWKWK walks from the previous code: the previous first symbol has been pushed (R192). -/
def firstPushed (l : Lzw) : Lzw := { l with stack := [l.firstCode] }

theorem WalksTo.firstPushed {resets : Nat} {l : Lzw} (hw : WalksTo resets l c syms d) :
    WalksTo resets (firstPushed l) c syms d :=
  WalksTo.extend (l := l) rfl le_rfl (fun _ _ => rfl) hw

theorem kwkwkOp_of_stack_nil {l : Lzw} (hstack : l.stack = []) (resets : Nat) (c : Code) :
    kwkwkOp resets c l =
      andThen (walk resets l.oldCode (firstPushed l)) fun l2 => .ok (insertThenOld c l2) := by
  rw [kwkwkOp, push_room l.firstCode (by rw [hstack, List.length_nil]; omega), andThen_ok, hstack]
  rfl

theorem runKwkwk_to_root (hstack : s.lzw.stack = []) (hw : WalksTo s.resets s.lzw s.lzw.oldCode syms d)
    (hd : d.toNat < s.lzw.clearCode.toNat) (hroom : syms.length + 1 < 4096) :
    runKwkwk c s =
      (.index (d.setWidth 8),
        { s with lzw := expanded c (d.setWidth 8) (syms.reverse ++ [s.lzw.firstCode]) s.lzw }) := by
  rw [runKwkwk, kwkwkOp_of_stack_nil hstack, walk_to_root hw.firstPushed hd (by rw [Nat.add_comm]; exact hroom),
    andThen_ok]
  exact popAttempt_insertThenOld c _ _ s.lzw s

/-- KWKWK, when its walk raises. -/
theorem runKwkwk_raised {e : Cause} {l : Lzw} (hstack : s.lzw.stack = [])
    (h : walk s.resets s.lzw.oldCode (firstPushed s.lzw) = .raised e l) :
    runKwkwk c s = raiseCorrupt e { s with lzw := l } := by
  rw [runKwkwk, kwkwkOp_of_stack_nil hstack, h]
  rfl

end

/-! ### What the codes do in a step -/

/-- Settles O25: `firstCodeOp` makes the one comparison that the clauses name. -/
theorem firstCodeEmitsItself : Obligations.FirstCodeEmitsItself := by
  intro s c hd
  have hraised := settle_raised .lzwBadFirstCode s hd nofun
  refine ⟨fun h => ?_, fun h => ?_, hraised⟩
  · rw [exec, execFirst, runFirst_of_defined h]
    exact settle_index _ _ hd
  · rw [exec, execFirst, runFirst_of_undefined h]
    exact hraised

/-- Settles O26: the root pushed is the one popped, and insertion leaves the stack alone. -/
theorem literalEmitsAndInserts : Obligations.LiteralEmitsAndInserts := by
  intro s c hd hroom
  rw [exec, execLiteral, runLiteral_of_room c hroom]
  exact settle_index _ _ hd

/-- Settles O28: the walk gets to the root with room to push it. -/
theorem definedCodeEmitsItsString : Obligations.DefinedCodeEmitsItsString := by
  intro s c d syms hd hstack hw hroot hroom
  rw [exec, execDefined, runDefined_to_root hstack hw hroot hroom]
  exact settle_index _ _ hd

/-- Settles O29: the walk of the previous code, above the symbol pushed first. -/
theorem repeatedCodeEmitsThePreviousString : Obligations.RepeatedCodeEmitsThePreviousString := by
  intro s c d syms hd hstack hw hroot hroom
  rw [exec, execKwkwk, runKwkwk_to_root hstack hw hroot hroom]
  exact settle_index _ _ hd

/-- A cause raised in an expansion ends the step as if raised at once: the stack is emptied (R202). -/
theorem settle_raised_of_stack (e : Cause) {s : State} (hd : decoding s = true) (he : e ≠ .inputEof)
    (st : List Byte) :
    settle (raiseCorrupt e { s with lzw := { s.lzw with stack := st } }).1
      (raiseCorrupt e { s with lzw := { s.lzw with stack := st } }).2 = .next (corruptDone e s) :=
  settle_raised e { s with lzw := { s.lzw with stack := st } } hd he

/-- Settles O30: at the end of the path the walk raises, before anything is inserted. -/
theorem brokenChainsAreCorrupt : Obligations.BrokenChainsAreCorrupt := by
  intro s c d syms hd hstack hclear hroom
  have hempty : s.lzw.stack.length + syms.length < 4096 := by rw [hstack, List.length_nil]; omega
  have hpushed : (firstPushed s.lzw).stack.length + syms.length < 4096 := by rw [Nat.add_comm]; exact hroom
  refine ⟨fun hw => ⟨fun hmax => ?_, fun hmax hself => ?_⟩, fun hw => ⟨fun hmax => ?_, fun hmax hself => ?_⟩⟩
  · rw [exec, execDefined, runDefined_raised (walk_to_undefined hw hclear hmax hempty.le)]
    exact settle_raised_of_stack _ hd (by decide) _
  · rw [exec, execDefined, runDefined_raised (walk_to_selfPrefix hw hclear hmax hself hempty)]
    exact settle_raised_of_stack _ hd (by decide) _
  · rw [exec, execKwkwk, runKwkwk_raised hstack (walk_to_undefined hw.firstPushed hclear hmax hpushed.le)]
    exact settle_raised_of_stack _ hd (by decide) _
  · rw [exec, execKwkwk, runKwkwk_raised hstack (walk_to_selfPrefix hw.firstPushed hclear hmax hself hpushed)]
    exact settle_raised_of_stack _ hd (by decide) _

end Sys2Proof.Machine
end

section
/-! A `NextIndex` call that goes on after its first token (CLEAR, a refill), and the end code (R184 to R187). -/

namespace Sys2Proof.Machine

/-! ### The call that goes on (R153, R186) -/

theorem exec_clear (s : State) : exec .clear s = readOn (clearTable s) := rfl

theorem decoding_of_blankStream {s t : State} (h : blankStream t = blankStream s) : decoding t = decoding s := by
  have hp : t.phase = s.phase := congrArg (·.phase) h
  rw [decoding, decoding, hp]

/-- The rest of a call completes (R160). -/
theorem readOn_next {s : State} (hd : decoding s = true) (h : ReadyForCodes s) : ∃ t, readOn s = .next t := by
  obtain ⟨⟨r, s1⟩, hq⟩ := nextIndexLoop_ends h (turns := turnsFor s) (Nat.lt_succ_of_lt (Nat.lt_succ_self _))
  have hd1 : decoding s1 = true := (decoding_of_blankStream (nextIndexLoop_blankStream hq)).trans hd
  rw [readOn, readIndex, hq]
  exact settle_next r s1 hd1

/-- The rest of a call is what its next token, or its result, does; and it completes. -/
theorem readOn_eq_nextToken {s : State} (hd : decoding s = true) (h : ReadyForCodes s) :
    (∀ i s1, fetchCode s = .token i s1 → readOn s = exec i s1)
      ∧ (∀ r s1, fetchCode s = .result r s1 → readOn s = settle r s1)
      ∧ ∃ t, readOn s = .next t := by
  have hrun := fetchCode_run hd h
  refine ⟨fun i s1 hf => ?_, fun r s1 hf => ?_, readOn_next hd h⟩ <;> rw [← hrun, hf] <;> rfl

/-- A whole payload in FILL or TAIL is appended, and the call reads on (R153). -/
theorem exec_subData_of_enough {n : Byte} {data rest : List Byte} {s : State} (hd : decoding s = true)
    (hlen : data.length = n.toNat) (hin : s.input = data ++ rest) :
    exec (.subData n) s = readOn { tookBytes data.length rest s with rd := appendData s.rd data } := by
  rw [execSubData_of_decoding hd, refillAndReadOn, readPayload_enough n data rest s hlen hin]
  rfl

/-- Settles O32: both are the rest of a call, from a state that is ready for codes. -/
theorem clearReadsOnInTheSameCall : Obligations.ClearReadsOnInTheSameCall := by
  intro s hd hinv
  have hready := readyForCodes_of_engineInv hinv hd
  have hclear : decoding (clearTable s) = true := hd
  obtain ⟨htoken, hresult, hnext⟩ := readOn_eq_nextToken hclear hready.clearTable
  refine ⟨htoken, hresult, hnext, ?_⟩
  rintro n data rest hlen hin hlt s0 rfl
  rw [exec_subData_of_enough hd hlen hin]
  exact readOn_eq_nextToken hd ⟨hready.appendData_bounded hlt hlen, hready.lzw⟩

/-! ### The root after a clear code (R186, R188) -/

/-- No slot is above the table (R201). -/
theorem LzwRanges.maxCode_le {l : Lzw} (h : LzwRanges l) : l.maxCode.toNat ≤ 4096 := by
  have hsize : 2 ^ l.codeSize.toNat ≤ 2 ^ 12 := Nat.pow_le_pow_right (by decide) h.widthMax
  exact h.maxCodeMax.trans (h.maxCodeSize ▸ hsize)

theorem LzwRanges.clearCode_ge {l : Lzw} (h : LzwRanges l) : 4 ≤ l.clearCode.toNat :=
  h.clearCode ▸ Nat.pow_le_pow_right (n := 2) (by decide) h.rootMin

theorem LzwRanges.clearCode_le_maxCode {l : Lzw} (h : LzwRanges l) : l.clearCode.toNat ≤ l.maxCode.toNat :=
  (Nat.le_add_right _ 2).trans h.maxCodeMin

/-- The ranges make a decoder state in which R85's classes are disjoint and exhaustive. -/
theorem LzwRanges.legal {l : Lzw} (h : LzwRanges l) : (codeContext l).legal = true := by
  have hpowers : ∀ n, n ≤ 8 → 2 ≤ n → 2 ^ n ∈ [4, 8, 16, 32, 64, 128, 256] := by decide
  have hpower : l.clearCode.toNat ∈ [4, 8, 16, 32, 64, 128, 256] := h.clearCode ▸ hpowers _ h.rootMax h.rootMin
  have hfresh : l.fresh = false ∨ l.maxCode.toNat = l.clearCode.toNat + 2 := by
    cases hf : l.fresh
    · exact .inl rfl
    · exact .inr (h.fresh hf)
  simp only [CodeContext.legal, Bool.and_eq_true, Bool.or_eq_true, Bool.not_eq_true', decide_eq_true_eq]
  exact ⟨⟨⟨⟨hpower, h.endCode⟩, h.maxCodeMin⟩, h.maxCode_le⟩, hfresh⟩

/-- A call whose first code is FIRST. -/
theorem readOn_of_first {s s1 : State} {c : Code} (hc : nextCode s.lzw.codeSize.toNat s = (.code c, s1))
    (hk : classify (codeContext s1.lzw) c = .first) : readOn s = exec (.first c) s1 := by
  rw [readOn, readIndex, turnsFor, nextIndexLoop, hc]
  simp only [hk]
  rfl

/-- Settles O31: after the reset the code is `rootSize + 1` bits wide, and a root is FIRST. -/
theorem clearThenRootEmitsTheRoot : Obligations.ClearThenRootEmitsTheRoot := by
  intro s c hd hrange hbits hc hroot
  have hl := (lzwInRange_iff s.lzw).mp hrange
  have hreset := LzwRanges.of_resetTable hl.rootMin hl.rootMax hl.clearCode hl.endCode
  have hwidth : (clearTable s).lzw.codeSize.toNat = s.lzw.rootSize.toNat + 1 := by
    have hmax := hl.rootMax
    rw [clearTable_lzw, resetTable]
    bv_omega
  have hcode : (takeCode (s.lzw.rootSize.toNat + 1) s.rd).1 = c := by
    apply BitVec.eq_of_toNat_eq
    rw [takeCode, BitVec.toNat_ofNat, ← hc, Nat.mod_eq_of_lt c.isLt]
  have hnext : nextCode (clearTable s).lzw.codeSize.toNat (clearTable s) =
      (.code c, { clearTable s with rd := (takeCode (s.lzw.rootSize.toNat + 1) s.rd).2 }) := by
    rw [hwidth, nextCode_of_enough (s := clearTable s) hbits, clearTable_rd, hcode]
  have hfirst : classify (codeContext (resetTable s.lzw)) c = .first :=
    classify_of_classCondition hreset.legal ⟨rfl, hroot⟩
  have hbelow : c.toNat < (resetTable s.lzw).maxCode.toNat :=
    hroot.trans_le hreset.clearCode_le_maxCode
  rw [exec_clear, readOn_of_first hnext hfirst]
  exact (firstCodeEmitsItself { clearTable s with rd := _ } c hd).1 hbelow

/-! ### The end code (R187) -/

theorem discard_eq {s : State} {b : Bool} (h : s.rd.exhausted = b) :
    discard s = { s with rd := { acc := 0, nbits := 0, exhausted := b } } := by
  subst h
  rfl

theorem runEnd_of_exhausted {s : State} (h : s.rd.exhausted = true) : runEnd s = endOfData (discard s) :=
  if_pos h

theorem runEnd_of_eof {s s1 : State} (hx : s.rd.exhausted = false) (h : readSubBlock (discard s) = (.eof, s1)) :
    runEnd s = raiseCorrupt .inputEof s1 := by
  rw [runEnd, if_neg (by simp [hx]), h]

theorem runEnd_of_block {s s1 : State} {n : Byte} {data : List Byte} (hx : s.rd.exhausted = false)
    (h : readSubBlock (discard s) = (.block n data, s1)) :
    runEnd s = if n = 0 then endOfData (setExhausted s1) else raiseCorrupt .badTerminator s1 := by
  rw [runEnd, if_neg (by simp [hx]), h]

/-- Too few bytes for a sub-block: all of them are taken (R152). -/
theorem readSubBlock_short {s : State}
    (h : s.input = [] ∨ ∃ n data, s.input = n :: data ∧ data.length < n.toNat) :
    readSubBlock s = (.eof, tookBytes s.input.length [] s) := by
  rcases readSubBlock_cases s with ⟨-, he⟩ | ⟨n, data, rest, hlen, hin, -⟩
  · exact he
  · rw [hin] at h
    rcases h with h | ⟨n', data', h, hshort⟩ <;> cases h
    rw [List.length_append] at hshort
    omega

/-- Settles O34: what END does after the terminator, and with each answer of the one sub-block it reads. -/
theorem endCodeChecksTheTerminator : Obligations.EndCodeChecksTheTerminator := by
  intro s hd
  refine ⟨fun hx => ?_, fun hx => ⟨fun rest hin => ?_, fun n data rest hn hlen hin => ?_, fun hshort => ?_⟩⟩ <;>
    rw [exec, execEnd]
  · rw [runEnd_of_exhausted hx, discard_eq hx]
    exact settle_endOfData _ hd
  · rw [runEnd_of_block hx (readSubBlock_enough (data := []) rfl hin), if_pos rfl, discard_eq hx]
    exact settle_endOfData _ hd
  · rw [runEnd_of_block hx (readSubBlock_enough hlen hin), if_neg hn, discard_eq hx]
    exact settle_raised .badTerminator _ hd (by decide)
  · rw [runEnd_of_eof hx (readSubBlock_short hshort), discard_eq hx]
    exact settle_eof _ hd

end Sys2Proof.Machine
end

section
/-! What an engine step in FILL or TAIL comes to for the LZW unit, said once: it pops a symbol, or its `NextIndex` call
reads codes and ends in one of six ways (R184). -/

namespace Sys2Proof.Machine

/-! ### The end of a call that reads codes -/

/-- Everything a `NextIndex` call that reads codes can end in, from the state `s` in which it has taken its last code:
the data ends, a cause is raised without an expansion, or the code gives an index, under the condition of its class
(R85, R184). -/
inductive CallEnd (s : State) : IndexResult × State → Prop
  | dataEnded (s1 : State) (hl : s1.lzw = s.lzw) : CallEnd s (endOfData s1)
  | raised (e : Cause) (s1 : State) (he : e ≠ .lzwStackOverflow) (hl : s1.lzw = s.lzw) : CallEnd s (raiseCorrupt e s1)
  | first (c : Code) (hc : c.toNat < s.lzw.clearCode.toNat) : CallEnd s (runFirst c s)
  | literal (c : Code) (hf : s.lzw.fresh = false) (hc : c.toNat < s.lzw.clearCode.toNat) : CallEnd s (runLiteral c s)
  | defined (c : Code) (hf : s.lzw.fresh = false) (hlow : s.lzw.clearCode.toNat + 2 ≤ c.toNat)
      (hc : c.toNat < s.lzw.maxCode.toNat) : CallEnd s (runDefined c s)
  | kwkwk (c : Code) (hf : s.lzw.fresh = false) (hc : s.lzw.maxCode.toNat ≤ c.toNat) : CallEnd s (runKwkwk c s)

theorem runEnd_callEnd (s : State) : CallEnd s (runEnd s) := by
  cases hx : s.rd.exhausted with
  | true =>
    rw [runEnd_of_exhausted hx]
    exact .dataEnded (discard s) rfl
  | false =>
    rcases readSubBlock_cases (discard s) with ⟨-, he⟩ | ⟨n, data, rest, -, -, he⟩
    · rw [runEnd_of_eof hx he]
      exact .raised .inputEof _ nofun rfl
    · rw [runEnd_of_block hx he]
      split_ifs
      · exact .dataEnded _ rfl
      · exact .raised .badTerminator _ nofun rfl

/-- The state `s1` in which a call from `s` has taken its last code: `P` is what every clear code of the call keeps. -/
structure LastCode (P : Lzw → Prop) (s s1 : State) : Prop where
  ready : ReadyForCodes s1
  stack : s1.lzw.stack = []
  kept : P s1.lzw
  frame : blankStream s1 = blankStream s

theorem LastCode.after {P : Lzw → Prop} {s s1 s2 : State} (h : LastCode P s1 s2) (hs : blankStream s1 = blankStream s) :
    LastCode P s s2 :=
  { h with frame := h.frame.trans hs }

/-- A call that is entered with an empty stack takes clear codes, and then ends (R184, R186). -/
theorem nextIndexLoop_callEnd {P : Lzw → Prop} (hreset : ∀ l, LzwReady l → P l → P (resetTable l)) {turns : Nat}
    {s : State} {q : IndexResult × State} (h : ReadyForCodes s) (hstack : s.lzw.stack = []) (hP : P s.lzw)
    (hq : nextIndexLoop turns s = some q) : ∃ s1, LastCode P s s1 ∧ CallEnd s1 q := by
  obtain ⟨r, t⟩ := q
  induction turns generalizing s with
  | zero => cases hq
  | succ turns ih =>
    have hlzw := nextCode_lzw s.lzw.codeSize.toNat s
    have hframe := blankStream_nextCode s.lzw.codeSize.toNat s
    rcases nextIndexLoop_cases hq with ⟨-, he⟩ | ⟨-, he⟩ | ⟨c, s1, hn, hk⟩
    · rw [he]
      exact ⟨s, ⟨h, hstack, hP, rfl⟩, .dataEnded { (nextCode _ s).2 with noEnd := true } hlzw⟩
    · rw [he]
      exact ⟨s, ⟨h, hstack, hP, rfl⟩, .raised .inputEof _ nofun hlzw⟩
    · have h1 := (h.nextCode hn).1
      rw [hn] at hlzw hframe
      have hlast : LastCode P s s1 := ⟨h1, by rw [hlzw, hstack], by rw [hlzw]; exact hP, hframe⟩
      have hclass {x : CodeClass} (hc : classify (codeContext s1.lzw) c = x) :
          ClassCondition (codeContext s1.lzw) c x := hc ▸ classCondition_classify h1.lzw.ranges.legal c
      rcases hk with ⟨-, he⟩ | ⟨-, he⟩ | ⟨hc, he⟩ | ⟨-, he⟩ | ⟨hc, he⟩ | ⟨hc, he⟩ | ⟨hc, he⟩
      · obtain ⟨s2, h2, hend⟩ := ih h1.clearTable rfl (hreset _ h1.lzw hlast.kept) he
        exact ⟨s2, h2.after ((blankStream_clearTable s1).trans hframe), hend⟩
      all_goals refine ⟨s1, hlast, ?_⟩; rw [he]
      · exact runEnd_callEnd s1
      · obtain ⟨-, hroot⟩ := hclass hc
        exact .first c hroot
      · exact .raised .lzwBadFirstCode s1 nofun rfl
      · obtain ⟨hf, hroot⟩ := hclass hc
        exact .literal c hf hroot
      · obtain ⟨hf, hlow, hdef⟩ := hclass hc
        exact .defined c hf hlow hdef
      · obtain ⟨hf, hundef⟩ := hclass hc
        exact .kwkwk c hf hundef

/-! ### The end of the step -/

theorem decoding_corruptExit (c : Cause) (s : State) : decoding (corruptExit c s) = false := by
  unfold corruptExit
  split_ifs <;> rfl

/-- The end of a step leaves the LZW unit as its call left it, and the step goes on decoding only after an index. -/
theorem settle_lzw {q : IndexResult × State} {t : State} (h : settle q.1 q.2 = .next t) :
    t.lzw = q.2.lzw ∧ (decoding t = true → ∃ i, q.1 = .index i) := by
  obtain ⟨r, s⟩ := q
  unfold settle at h
  cases hp : s.phase <;> simp only [hp] at h <;> cases h
  case fill =>
    cases r with
    | index i => exact ⟨by simp [fillResult], fun _ => ⟨i, rfl⟩⟩
    | endOfData => exact ⟨rfl, nofun⟩
    | corrupt c => exact ⟨corruptExit_lzw c s, fun hd => absurd ((decoding_corruptExit c s).symm.trans hd) nofun⟩
  case tail =>
    cases r with
    | index i => exact ⟨rfl, fun _ => ⟨i, rfl⟩⟩
    | endOfData => exact ⟨rfl, nofun⟩
    | corrupt c => exact ⟨corruptExit_lzw c s, fun hd => absurd ((decoding_corruptExit c s).symm.trans hd) nofun⟩

/-- Everything a FILL or TAIL step can do to the LZW unit: pop a symbol (R198), or end a call that reads codes. -/
theorem engineStep_lzw_cases {P : Lzw → Prop} (hreset : ∀ l, LzwReady l → P l → P (resetTable l)) {s t : State}
    (hd : decoding s = true) (h : ReadyForCodes s) (hP : P s.lzw) (ht : engineStep s = .next t) :
    (∃ v rest, s.lzw.stack = v :: rest ∧ t.lzw = { s.lzw with stack := rest })
      ∨ ∃ s1 q, LastCode P s s1 ∧ CallEnd s1 q ∧ t.lzw = q.2.lzw ∧ (decoding t = true → ∃ i, q.1 = .index i) := by
  obtain ⟨q, hq, he⟩ := engineStep_of_decoding hd h
  obtain ⟨hlzw, hindex⟩ := settle_lzw (he.symm.trans ht)
  have hresult := h.lzw.result
  rw [nextIndex] at hq
  rcases heldIndex_cases s with ⟨hr, -⟩ | ⟨c, hr, -⟩ | ⟨-, hstack, hheld⟩ | ⟨v, rest, -, hstack, hheld⟩
  · rw [hresult] at hr; cases hr
  · rw [hresult] at hr; cases hr
  · rw [hheld] at hq
    obtain ⟨s1, hlast, hend⟩ := nextIndexLoop_callEnd hreset h hstack hP hq
    exact .inr ⟨s1, q, hlast, hend, hlzw, hindex⟩
  · rw [hheld] at hq
    cases hq
    exact .inl ⟨v, rest, hstack, hlzw⟩

end Sys2Proof.Machine
end

section
/-! The table invariant: every slot that a walk can read has been written with a root and a data code, and every symbol
is a root (R196, R203, R205). -/

namespace Sys2Proof.Machine

/-! ### The invariant by name -/

/-- A code that is neither the clear code `n` nor the end code after it (R203). -/
def DataCode (n : Nat) (c : Code) : Prop := c.toNat ≠ n ∧ c.toNat ≠ n + 1

theorem DataCode.of_root {n : Nat} {c : Code} (h : c.toNat < n) : DataCode n c := ⟨by omega, by omega⟩

theorem DataCode.of_above {n : Nat} {c : Code} (h : n + 2 ≤ c.toNat) : DataCode n c := ⟨by omega, by omega⟩

/-- The conditions of `symbolsAreRoots` for the clear code `n`, by name. -/
structure TableRoots (n : Nat) (l : Lzw) : Prop where
  clearCode : l.clearCode.toNat = n
  stack : ∀ v ∈ l.stack, v.toNat < n
  slots : ∀ k, n + 2 ≤ k → k < l.maxCode.toNat →
    ∃ slot, cellGet k l.table = some slot ∧ slot.suf.toNat < n ∧ DataCode n slot.pre
  previous : l.fresh = false → l.firstCode.toNat < n ∧ DataCode n l.oldCode

theorem slotWritten_iff {l : Lzw} (hend : l.endCode.toNat = l.clearCode.toNat + 1) (k : Nat) :
    slotWritten l k = true ↔
      ∃ slot, cellGet k l.table = some slot ∧ slot.suf.toNat < l.clearCode.toNat
        ∧ DataCode l.clearCode.toNat slot.pre := by
  unfold slotWritten
  cases cellGet k l.table <;> simp [DataCode, hend, and_assoc]

theorem symbolsAreRoots_iff {l : Lzw} (hend : l.endCode.toNat = l.clearCode.toNat + 1) :
    symbolsAreRoots l = true ↔ TableRoots l.clearCode.toNat l := by
  simp only [symbolsAreRoots, Bool.and_eq_true, Bool.or_eq_true, List.all_eq_true, List.mem_range, decide_eq_true_eq,
    slotWritten_iff hend, hend]
  constructor
  · rintro ⟨⟨hstack, hslots⟩, hprevious⟩
    refine ⟨rfl, hstack, fun k hlow hk => (hslots k hk).resolve_left (Nat.not_lt.mpr hlow), fun hf => ?_⟩
    obtain ⟨⟨hfirst, hclear⟩, hcode⟩ := hprevious.resolve_left (by simp [hf])
    exact ⟨hfirst, hclear, hcode⟩
  · rintro ⟨-, hstack, hslots, hprevious⟩
    refine ⟨⟨hstack, fun k hk => ?_⟩, ?_⟩
    · exact (Nat.lt_or_ge k _).imp_right fun hlow => hslots k hlow hk
    · cases hf : l.fresh with
      | true => exact .inl rfl
      | false =>
        obtain ⟨hfirst, hclear, hcode⟩ := hprevious hf
        exact .inr ⟨⟨hfirst, hclear⟩, hcode⟩

theorem tableInv_iff (s : State) :
    tableInv s = true ↔ engineInv s = true ∧ (decoding s = true → symbolsAreRoots s.lzw = true) := by
  simp only [tableInv, Bool.and_eq_true, Bool.or_eq_true, Bool.not_eq_true', ← Bool.not_eq_true, ← imp_iff_not_or]

theorem tableRoots_of_tableInv {s : State} (h : tableInv s = true) (hd : decoding s = true) :
    TableRoots s.lzw.clearCode.toNat s.lzw := by
  obtain ⟨hinv, hroots⟩ := (tableInv_iff s).mp h
  exact (symbolsAreRoots_iff (readyForCodes_of_engineInv hinv hd).lzw.ranges.endCode).mp (hroots hd)

theorem tableInv_of_tableRoots {s : State} {n : Nat} (hinv : engineInv s = true)
    (h : decoding s = true → TableRoots n s.lzw) : tableInv s = true := by
  refine (tableInv_iff s).mpr ⟨hinv, fun hd => ?_⟩
  have hroots := h hd
  rw [← hroots.clearCode] at hroots
  exact (symbolsAreRoots_iff (readyForCodes_of_engineInv hinv hd).lzw.ranges.endCode).mpr hroots

/-- A reset table has no slot above the roots, and its unit has no previous code (R182). -/
theorem TableRoots.of_resetTable {l : Lzw} (h : LzwRanges (resetTable l)) :
    TableRoots l.clearCode.toNat (resetTable l) where
  clearCode := rfl
  stack := nofun
  slots _ hlow hk := absurd (hk.trans_eq (h.fresh rfl)) (Nat.not_lt.mpr hlow)
  previous := nofun

/-! ### The operations -/

/-- The unit in an expansion, with the invariant of the table for the clear code `n`. -/
structure Rooted (n : Nat) (l : Lzw) : Prop where
  expanding : Expanding l
  roots : TableRoots n l

/-- An attempt that goes on goes on with the invariant. -/
def Attempt.Rooted (n : Nat) : Attempt → Prop
  | .ok l => Machine.Rooted n l
  | .raised _ _ => True

theorem andThen_rooted {n : Nat} {a : Attempt} {f : Lzw → Attempt} (ha : a.Rooted n)
    (hf : ∀ l, Rooted n l → (f l).Rooted n) : (andThen a f).Rooted n := by
  cases a with
  | ok l => exact hf l ha
  | raised c l => trivial

/-- A root is a symbol: the roots are below 256 (R82). -/
theorem root_symbol_lt {n : Nat} {l : Lzw} (h : LzwRanges l) (hn : l.clearCode.toNat = n) {c : Code}
    (hc : c.toNat < n) : (c.setWidth 8 : Byte).toNat < n := by
  have hpower : 2 ^ l.rootSize.toNat ≤ 2 ^ 8 := Nat.pow_le_pow_right (by decide) h.rootMax
  rw [← h.clearCode, hn] at hpower
  rwa [BitVec.toNat_setWidth, Nat.mod_eq_of_lt (by omega)]

theorem Rooted.push {n : Nat} {l : Lzw} (h : Rooted n l) {v : Byte} (hv : v.toNat < n) : (push v l).Rooted n := by
  have hsound := h.expanding.push v
  rcases push_cases v l with ⟨-, hp⟩ | ⟨-, hp⟩ <;> rw [hp] at hsound ⊢
  · trivial
  · exact ⟨hsound, { h.roots with stack := List.forall_mem_cons.mpr ⟨hv, h.roots.stack⟩ }⟩

theorem Rooted.setFirstCode {n : Nat} {l : Lzw} (h : Rooted n l) {v : Byte} (hv : v.toNat < n) :
    Rooted n { l with firstCode := v } :=
  ⟨h.expanding.setFirstCode v, { h.roots with previous := fun hf => ⟨hv, (h.roots.previous hf).2⟩ }⟩

/-- A defined slot above the constants reads as it was written. -/
theorem TableRoots.readSlot {n : Nat} {l : Lzw} (h : TableRoots n l) (resets : Nat) {c : Code} (hc : DataCode n c)
    (hlow : n ≤ c.toNat) (hmax : c.toNat < l.maxCode.toNat) :
    (readSlot resets l c).suf.toNat < n ∧ DataCode n (readSlot resets l c).pre := by
  obtain ⟨hclear, hend⟩ := hc
  obtain ⟨slot, hget, hslot⟩ := h.slots c.toNat (by omega) hmax
  rw [Machine.readSlot, hget]
  exact hslot

theorem Rooted.walkLoop {n : Nat} {l : Lzw} (h : Rooted n l) (resets turns : Nat) {c : Code} (hc : DataCode n c) :
    (walkLoop resets turns c l).Rooted n := by
  induction turns generalizing c l with
  | zero => trivial
  | succ turns ih =>
    have hn := h.roots.clearCode
    rw [Machine.walkLoop]
    split_ifs with hlow hmax hself
    · trivial
    · exact andThen_rooted (h.push (h.roots.readSlot resets hc (by omega) (by omega)).1) fun _ _ => trivial
    · obtain ⟨hsuf, hpre⟩ := h.roots.readSlot resets hc (by omega) (by omega)
      exact andThen_rooted (h.push hsuf) fun _ h1 => ih h1 hpre
    · have hroot := root_symbol_lt h.expanding.ready.ranges hn (c := c) (by omega)
      exact (h.setFirstCode hroot).push hroot

/-- The slots after an insertion: those before it, and with room the new one at `maxCode` (R195). -/
theorem insertEntry_slot_cases {l : Lzw} {k : Nat} (hk : k < (insertEntry l).maxCode.toNat) :
    (k < l.maxCode.toNat ∧ cellGet k (insertEntry l).table = cellGet k l.table)
      ∨ cellGet k (insertEntry l).table = some { pre := l.oldCode, suf := l.firstCode } := by
  by_cases hroom : l.maxCode.toNat < 4096
  · have hmax : (l.maxCode + 1).toNat = l.maxCode.toNat + 1 := by bv_omega
    rw [insertEntry_maxCode_of_room hroom, hmax] at hk
    rw [insertEntry_table_of_room hroom]
    rcases Nat.lt_succ_iff_lt_or_eq.mp hk with hlt | rfl
    · exact .inl ⟨hlt, cellGet_cellSet_other hlt.ne _ _⟩
    · exact .inr (cellGet_cellSet_same _ _ _)
  · rw [insertEntry_of_full (Nat.not_lt.mp hroom)] at hk ⊢
    exact .inl ⟨hk, rfl⟩

theorem Rooted.insertThenOld {n : Nat} {l : Lzw} (h : Rooted n l) {c : Code} (hc : DataCode n c) :
    Rooted n (insertThenOld c l) := by
  obtain ⟨hfirst, hold⟩ := h.roots.previous h.expanding.fresh
  refine ⟨h.expanding.insertThenOld c, ?_, ?_, fun k hlow hk => ?_, fun _ => ⟨?_, hc⟩⟩
  · exact (congrArg BitVec.toNat (insertEntry_clearCode l)).trans h.roots.clearCode
  · exact (insertEntry_stack l).symm ▸ h.roots.stack
  · rcases insertEntry_slot_cases hk with ⟨hlt, hget⟩ | hget
    · exact hget ▸ h.roots.slots k hlow hlt
    · exact ⟨_, hget, hfirst, hold⟩
  · exact (insertEntry_firstCode l).symm ▸ hfirst

/-! ### The code classes -/

theorem Rooted.literalOp {n : Nat} {l : Lzw} (h : Rooted n l) {c : Code} (hc : c.toNat < n) :
    (literalOp c l).Rooted n := by
  have hroot := root_symbol_lt h.expanding.ready.ranges h.roots.clearCode hc
  exact andThen_rooted ((h.setFirstCode hroot).push hroot) fun _ h1 => h1.insertThenOld (.of_root hc)

theorem Rooted.definedOp {n : Nat} {l : Lzw} (h : Rooted n l) (resets : Nat) {c : Code} (hc : DataCode n c) :
    (definedOp resets c l).Rooted n :=
  andThen_rooted (h.walkLoop resets _ hc) fun _ h1 => h1.insertThenOld hc

theorem Rooted.kwkwkOp {n : Nat} {l : Lzw} (h : Rooted n l) (resets : Nat) {c : Code} (hc : DataCode n c) :
    (kwkwkOp resets c l).Rooted n := by
  obtain ⟨hfirst, -⟩ := h.roots.previous h.expanding.fresh
  refine andThen_rooted (h.push hfirst) fun l1 h1 => ?_
  obtain ⟨-, hold⟩ := h1.roots.previous h1.expanding.fresh
  exact andThen_rooted (h1.walkLoop resets _ hold) fun _ h2 => h2.insertThenOld hc

/-- After a result that is an index, the unit meets the invariant. -/
def RootsSound (n : Nat) (q : IndexResult × State) : Prop := ∀ i, q.1 = .index i → TableRoots n q.2.lzw

theorem popAttempt_rootsSound {n : Nat} {a : Attempt} (ha : a.Rooted n) (s : State) :
    RootsSound n (popAttempt a s) := by
  cases a with
  | ok l => exact fun _ _ => { ha.roots with stack := fun v hv => ha.roots.stack v (List.mem_of_mem_tail hv) }
  | raised c l => exact nofun

/-- Every end of a call keeps the invariant. -/
theorem CallEnd.rootsSound {n : Nat} {s : State} {q : IndexResult × State} (h : CallEnd s q) (hready : ReadyForCodes s)
    (hroots : TableRoots n s.lzw) : RootsSound n q := by
  have hn := hroots.clearCode
  have hmax := hready.lzw.ranges.maxCodeMin
  have hrooted (hf : s.lzw.fresh = false) : Rooted n s.lzw := ⟨⟨hready.lzw, hf⟩, hroots⟩
  cases h with
  | dataEnded | raised => exact nofun
  | first c hc =>
    have hroot : c.toNat < n := hn ▸ hc
    rw [runFirst_of_defined (by omega)]
    exact fun _ _ => { hroots with
      previous := fun _ => ⟨root_symbol_lt hready.lzw.ranges hn hroot, .of_root hroot⟩ }
  | literal c hf hc => exact popAttempt_rootsSound ((hrooted hf).literalOp (hn ▸ hc)) s
  | defined c hf hlow hc =>
    exact popAttempt_rootsSound ((hrooted hf).definedOp s.resets (.of_above (hn ▸ hlow))) s
  | kwkwk c hf hc => exact popAttempt_rootsSound ((hrooted hf).kwkwkOp s.resets (.of_above (by omega))) s

/-! ### The step -/

/-- Decoding begins with `Init` (R231, R232). -/
theorem engineStep_begins_decoding {s t : State} (h : engineStep s = .next t) (hs : decoding s = false)
    (hd : decoding t = true) : ∃ r l, t.lzw = initLzw r l := by
  obtain ⟨s1, hread, hend⟩ := engineStep_readThenEnd h
  rw [← decoding_of_blankStream hread.frame] at hs
  cases hend with
  | skipped => rw [hs] at hd; cases hd
  | finished | rootRefused => cases hd
  | filled r hp => rw [(decoding_iff s1).mpr (.inl hp)] at hs; cases hs
  | tailed r hp => rw [(decoding_iff s1).mpr (.inr hp)] at hs; cases hs
  | rootAccepted r hp => exact ⟨r, s1.lzw, rfl⟩

theorem engineStep_tableInv {s t : State} (h : tableInv s = true) (ht : engineStep s = .next t) :
    tableInv t = true := by
  obtain ⟨hinv, -⟩ := (tableInv_iff s).mp h
  have hinv' := engineStep_engineInv hinv ht
  cases hd : decoding s with
  | true =>
    have hready := readyForCodes_of_engineInv hinv hd
    have hroots := tableRoots_of_tableInv h hd
    have hreset (l : Lzw) (hl : LzwReady l) (hn : TableRoots s.lzw.clearCode.toNat l) :
        TableRoots s.lzw.clearCode.toNat (resetTable l) :=
      hn.clearCode ▸ .of_resetTable hl.resetTable.ranges
    refine tableInv_of_tableRoots (n := s.lzw.clearCode.toNat) hinv' fun hd' => ?_
    rcases engineStep_lzw_cases hreset hd hready hroots ht with ⟨v, rest, hstack, hl⟩ | ⟨s1, q, hlast, hend, hl, hindex⟩
    · rw [hl]
      exact { hroots with stack := fun w hw => hroots.stack w (hstack ▸ List.mem_cons_of_mem v hw) }
    · obtain ⟨i, hi⟩ := hindex hd'
      rw [hl]
      exact hend.rootsSound hlast.ready hlast.kept i hi
  | false =>
    refine (tableInv_iff t).mpr ⟨hinv', fun hd' => ?_⟩
    obtain ⟨r, l, hl⟩ := engineStep_begins_decoding ht hd hd'
    have hranges := (readyForCodes_of_engineInv hinv' hd').lzw.ranges
    rw [hl] at hranges ⊢
    exact (symbolsAreRoots_iff hranges.endCode).mpr (.of_resetTable hranges)

theorem engineMove_tableInv {s t : State} (h : tableInv s = true) (ht : engineMove s = .next t) :
    tableInv t = true := by
  rcases engineMove_cases ht with hstep | ⟨rfl, -, -⟩
  · exact engineStep_tableInv h hstep
  · exact h

/-- No host operation makes the engine decode. -/
theorem HostEffect.decoding_of_decoding {i : Instr} {s t : State} (h : HostEffect i s t) (hd : decoding t = true) :
    decoding s = true := by
  have hstart {u : State} (hu : decoding (startFrame u) = true) : decoding u = true := by
    unfold startFrame at hu
    split_ifs at hu
    · cases hu
    · exact hu
  have habort : decoding (abortFrame s) = false := by rw [decoding, abortFrame_phase]; rfl
  cases h with
  | replied | ignored | configured | cleared | irqEnabled | loaded | refused => exact hd
  | aborted => rw [habort] at hd; cases hd
  | restarted =>
    have hd := hstart hd
    rw [habort] at hd
    cases hd
  | started => exact hstart hd

/-- A host operation does not reach the LZW unit. -/
theorem HostEffect.tableInv {i : Instr} {s t : State} (h : HostEffect i s t) (hs : tableInv s = true) :
    tableInv t = true := by
  obtain ⟨hinv, hroots⟩ := (tableInv_iff s).mp hs
  exact (tableInv_iff t).mpr ⟨h.engineInv hinv, fun hd => h.lzw_eq.symm ▸ hroots (h.decoding_of_decoding hd)⟩

/-- Settles O50, by who acts in the step. -/
theorem symbolsStayRoots : Obligations.SymbolsStayRoots := by
  intro s t hs h
  rcases step_cases_by_agent h with ⟨agenda, he⟩ | ⟨w, rest, -, he⟩ | ⟨rest, -, rfl⟩ | ⟨_, _, _, _, _, rfl⟩
  · exact engineMove_tableInv (s := { s with agenda := agenda }) hs he
  · exact he.tableInv hs
  · exact tableInv_reset
  · exact hs

end Sys2Proof.Machine
end

section
/-! Chains of the table: none runs in a circle, so a walk pushes fewer symbols than the stack has slots (R194, R200). -/

namespace Sys2Proof.Machine

/-! ### Chains that stop -/

/-- The walk from `c` comes to a root, to an undefined slot or to a slot that links to itself (R193, R200). -/
def ChainStops (resets : Nat) (l : Lzw) (c : Code) : Prop :=
  ∃ syms d, WalksTo resets l c syms d
    ∧ (d.toNat < l.clearCode.toNat ∨ l.maxCode.toNat ≤ d.toNat ∨ (readSlot resets l d).pre = d)

/-- The walk from `c` comes to a root. -/
def ReachesRoot (resets : Nat) (l : Lzw) (c : Code) : Prop :=
  ∃ syms d, WalksTo resets l c syms d ∧ d.toNat < l.clearCode.toNat

/-- `chainsStop` by its two parts: the defined slots, and the previous code. -/
theorem chainsStop_iff (resets : Nat) (l : Lzw) :
    chainsStop resets l ↔
      (∀ c : Code, l.clearCode.toNat + 2 ≤ c.toNat → c.toNat < l.maxCode.toNat → ChainStops resets l c)
        ∧ (l.fresh = false → l.maxCode.toNat ≤ l.oldCode.toNat ∨ ReachesRoot resets l l.oldCode) :=
  Iff.rfl

theorem WalksTo.trans {resets : Nat} {l : Lzw} {c d e : Code} {syms syms' : List Byte}
    (h : WalksTo resets l c syms d) (h' : WalksTo resets l d syms' e) : WalksTo resets l c (syms ++ syms') e := by
  induction h with
  | here c => exact h'
  | through c syms d hc hm hpre _ ih => exact .through c _ _ hc hm hpre (ih h')

theorem ReachesRoot.of_root {resets : Nat} {l : Lzw} {c : Code} (h : c.toNat < l.clearCode.toNat) :
    ReachesRoot resets l c :=
  ⟨[], c, .here c, h⟩

theorem ReachesRoot.chainStops {resets : Nat} {l : Lzw} {c : Code} (h : ReachesRoot resets l c) :
    ChainStops resets l c := by
  obtain ⟨syms, d, hw, hd⟩ := h
  exact ⟨syms, d, hw, .inl hd⟩

theorem ChainStops.of_undefined {resets : Nat} {l : Lzw} {c : Code} (h : l.maxCode.toNat ≤ c.toNat) :
    ChainStops resets l c :=
  ⟨[], c, .here c, .inr (.inl h)⟩

/-- A chain that walks to one that stops, stops. -/
theorem WalksTo.chainStops {resets : Nat} {l : Lzw} {c d : Code} {syms : List Byte} (h : WalksTo resets l c syms d)
    (hd : ChainStops resets l d) : ChainStops resets l c := by
  obtain ⟨syms', e, hw, he⟩ := hd
  exact ⟨_, e, h.trans hw, he⟩

/-- The previous code of a unit whose chains stop. -/
theorem previous_chainStops {resets : Nat} {l : Lzw} (h : chainsStop resets l) (hf : l.fresh = false) :
    ChainStops resets l l.oldCode :=
  (h.2 hf).elim .of_undefined ReachesRoot.chainStops

/-! ### Fields that no walk reads -/

/-- `l'` has the table of `l`: a walk is the same in both. -/
structure SameTable (l l' : Lzw) : Prop where
  table : l'.table = l.table
  clearCode : l'.clearCode = l.clearCode
  maxCode : l'.maxCode = l.maxCode

theorem sameTable_stack (l : Lzw) (st : List Byte) : SameTable l { l with stack := st } := ⟨rfl, rfl, rfl⟩

theorem sameTable_firstPushed (l : Lzw) : SameTable l (firstPushed l) := ⟨rfl, rfl, rfl⟩

theorem sameTable_atRoot (d : Byte) (rest : List Byte) (l : Lzw) : SameTable l (atRoot d rest l) := ⟨rfl, rfl, rfl⟩

theorem sameTable_insertThenOld (c : Code) (l : Lzw) : SameTable (insertEntry l) (insertThenOld c l) :=
  ⟨rfl, rfl, rfl⟩

theorem SameTable.symm {l l' : Lzw} (h : SameTable l l') : SameTable l' l :=
  ⟨h.table.symm, h.clearCode.symm, h.maxCode.symm⟩

section
variable {resets : Nat} {l l' : Lzw} (hs : SameTable l l')
include hs

theorem SameTable.walksTo {c d : Code} {syms : List Byte} (h : WalksTo resets l c syms d) :
    WalksTo resets l' c syms d :=
  h.extend hs.clearCode (hs.maxCode ▸ le_rfl) fun n _ => readSlot_of_table hs.table n

theorem SameTable.reachesRoot {c : Code} (h : ReachesRoot resets l c) : ReachesRoot resets l' c := by
  obtain ⟨syms, d, hw, hd⟩ := h
  exact ⟨syms, d, hs.walksTo hw, hs.clearCode ▸ hd⟩

theorem SameTable.chainStops {c : Code} (h : ChainStops resets l c) : ChainStops resets l' c := by
  obtain ⟨syms, d, hw, hd⟩ := h
  refine ⟨syms, d, hs.walksTo hw, ?_⟩
  rwa [hs.clearCode, hs.maxCode, readSlot_of_table hs.table]

/-- With the same table, only the previous code has to be looked at. -/
theorem SameTable.chainsStop (h : chainsStop resets l)
    (hold : l'.fresh = false → l'.maxCode.toNat ≤ l'.oldCode.toNat ∨ ReachesRoot resets l l'.oldCode) :
    chainsStop resets l' := by
  refine ⟨fun c hlow hc => ?_, fun hf => (hold hf).imp_right hs.reachesRoot⟩
  rw [hs.clearCode] at hlow
  rw [hs.maxCode] at hc
  exact hs.chainStops (h.1 c hlow hc)

end

/-! ### Insertion (R195, R200) -/

theorem insertEntry_maxCode_le (l : Lzw) : l.maxCode.toNat ≤ (insertEntry l).maxCode.toNat := by
  by_cases hroom : l.maxCode.toNat < 4096
  · rw [insertEntry_maxCode_of_room hroom]
    bv_omega
  · rw [insertEntry_of_full (Nat.not_lt.mp hroom)]

theorem readSlot_insertEntry_below (resets : Nat) {l : Lzw} {n : Code} (hn : n.toNat < l.maxCode.toNat) :
    readSlot resets (insertEntry l) n = readSlot resets l n := by
  by_cases hroom : l.maxCode.toNat < 4096
  · rw [readSlot, readSlot, insertEntry_table_of_room hroom, cellGet_cellSet_other hn.ne]
  · rw [insertEntry_of_full (Nat.not_lt.mp hroom)]

theorem readSlot_insertEntry_new (resets : Nat) {l : Lzw} {n : Code} (hroom : l.maxCode.toNat < 4096)
    (hn : n.toNat = l.maxCode.toNat) :
    readSlot resets (insertEntry l) n = { pre := l.oldCode, suf := l.firstCode } := by
  rw [readSlot, insertEntry_table_of_room hroom, hn, cellGet_cellSet_same, Option.getD_some]

theorem WalksTo.insertEntry {resets : Nat} {l : Lzw} {c d : Code} {syms : List Byte}
    (h : WalksTo resets l c syms d) : WalksTo resets (insertEntry l) c syms d :=
  h.extend (insertEntry_clearCode l) (insertEntry_maxCode_le l) fun _ => readSlot_insertEntry_below resets

theorem ReachesRoot.insertEntry {resets : Nat} {l : Lzw} {c : Code} (h : ReachesRoot resets l c) :
    ReachesRoot resets (insertEntry l) c := by
  obtain ⟨syms, d, hw, hd⟩ := h
  exact ⟨syms, d, hw.insertEntry, (insertEntry_clearCode l).symm ▸ hd⟩

/-- The link from the new slot to the previous code. -/
theorem walksTo_previous {resets : Nat} {l : Lzw} {n : Code} (hroom : l.maxCode.toNat < 4096)
    (hclear : l.clearCode.toNat ≤ l.maxCode.toNat) (hn : n.toNat = l.maxCode.toNat) (hne : l.oldCode ≠ n) :
    WalksTo resets (insertEntry l) n [l.firstCode] l.oldCode := by
  have hslot := readSlot_insertEntry_new resets hroom hn
  have hlink := WalksTo.through (resets := resets) (l := Machine.insertEntry l) n [] l.oldCode
  rw [hslot, insertEntry_clearCode, insertEntry_maxCode_of_room hroom] at hlink
  exact hlink (by omega) (by bv_omega) hne (.here _)

/-- The new slot's chain stops: it links to itself, to an undefined slot, or to a code whose chain comes to a root. -/
theorem newSlot_chainStops {resets : Nat} {l : Lzw} {n : Code} (hroom : l.maxCode.toNat < 4096)
    (hclear : l.clearCode.toNat ≤ l.maxCode.toNat) (hn : n.toNat = l.maxCode.toNat)
    (hold : l.maxCode.toNat ≤ l.oldCode.toNat ∨ ReachesRoot resets l l.oldCode) :
    ChainStops resets (insertEntry l) n := by
  by_cases hself : l.oldCode = n
  · refine ⟨[], n, .here n, .inr (.inr ?_)⟩
    rw [readSlot_insertEntry_new resets hroom hn]
    exact hself
  · refine (walksTo_previous hroom hclear hn hself).chainStops ?_
    rcases hold with hundef | hroot
    · refine .of_undefined ?_
      rw [insertEntry_maxCode_of_room hroom]
      bv_omega
    · exact hroot.insertEntry.chainStops

/-- Insertion makes no circle: a chain that ended at the slot now written goes on from it and stops. -/
theorem ChainStops.insertEntry {resets : Nat} {l : Lzw} {c : Code} (hclear : l.clearCode.toNat ≤ l.maxCode.toNat)
    (hold : l.maxCode.toNat ≤ l.oldCode.toNat ∨ ReachesRoot resets l l.oldCode) (h : ChainStops resets l c) :
    ChainStops resets (insertEntry l) c := by
  obtain ⟨syms, d, hw, hd⟩ := h
  refine hw.insertEntry.chainStops ?_
  by_cases hdef : d.toNat < l.maxCode.toNat
  · refine ⟨[], d, .here d, ?_⟩
    rw [insertEntry_clearCode, readSlot_insertEntry_below resets hdef]
    exact hd.imp_right (.inr <| ·.resolve_left (Nat.not_le.mpr hdef))
  · by_cases hroom : l.maxCode.toNat < 4096
    · by_cases hnew : d.toNat = l.maxCode.toNat
      · exact newSlot_chainStops hroom hclear hnew hold
      · refine .of_undefined ?_
        rw [insertEntry_maxCode_of_room hroom]
        bv_omega
    · rw [insertEntry_of_full (Nat.not_lt.mp hroom)]
      exact .of_undefined (Nat.not_lt.mp hdef)

/-- The end of an expansion keeps the chains stopping, when its code is still undefined or its chain comes to a root. -/
theorem chainsStop_insertThenOld {resets : Nat} {l : Lzw} (hclear : l.clearCode.toNat ≤ l.maxCode.toNat)
    (hf : l.fresh = false) (h : chainsStop resets l) {c : Code}
    (hc : (insertEntry l).maxCode.toNat ≤ c.toNat ∨ ReachesRoot resets (insertEntry l) c) :
    chainsStop resets (insertThenOld c l) := by
  refine ⟨fun n hlow _ => ?_, fun _ => hc.imp_right ?_⟩
  · have hlow : l.clearCode.toNat + 2 ≤ n.toNat := insertEntry_clearCode l ▸ hlow
    have hstops : ChainStops resets l n := (Nat.lt_or_ge n.toNat l.maxCode.toNat).elim (h.1 n hlow) .of_undefined
    exact (sameTable_insertThenOld c l).chainStops (hstops.insertEntry hclear (h.2 hf))
  · exact (sameTable_insertThenOld c l).reachesRoot

/-- A code whose chain comes to a root is defined. -/
theorem ReachesRoot.lt_maxCode {resets : Nat} {l : Lzw} {c : Code} (hclear : l.clearCode.toNat ≤ l.maxCode.toNat)
    (h : ReachesRoot resets l c) : c.toNat < l.maxCode.toNat := by
  obtain ⟨syms, d, hw, hd⟩ := h
  cases hw with
  | here => exact hd.trans_le hclear
  | through _ _ _ _ hm => exact hm

/-- The code of a KWKWK is still undefined after the insertion, or it is the new slot above the previous code. -/
theorem kwkwk_chain {resets : Nat} {l : Lzw} (hclear : l.clearCode.toNat ≤ l.maxCode.toNat) {c : Code}
    (hc : l.maxCode.toNat ≤ c.toNat) (hold : ReachesRoot resets l l.oldCode) :
    (insertEntry l).maxCode.toNat ≤ c.toNat ∨ ReachesRoot resets (insertEntry l) c := by
  have hroom : l.maxCode.toNat < 4096 := hc.trans_lt c.isLt
  by_cases hnew : c.toNat = l.maxCode.toNat
  · have hlt := hold.lt_maxCode hclear
    have hlink := walksTo_previous (resets := resets) hroom hclear hnew fun he => by rw [he] at hlt; omega
    obtain ⟨syms, d, hw, hd⟩ := hold.insertEntry
    exact .inr ⟨_, d, hlink.trans hw, hd⟩
  · rw [insertEntry_maxCode_of_room hroom]
    exact .inl (by bv_omega)

/-- A reset table has no slot above the roots, and its unit no previous code (R182). -/
theorem chainsStop_resetTable (resets : Nat) {l : Lzw} (h : LzwRanges (resetTable l)) :
    chainsStop resets (resetTable l) :=
  ⟨fun _ hlow hc => absurd (hc.trans_eq (h.fresh rfl)) (Nat.not_lt.mpr hlow), nofun⟩

/-! ### The length of a chain (R200) -/

/-- A chain walk goes on from slot `c` to another code (R193). -/
def IsLink (resets : Nat) (l : Lzw) (c : Code) : Prop :=
  l.clearCode.toNat ≤ c.toNat ∧ c.toNat < l.maxCode.toNat ∧ (readSlot resets l c).pre ≠ c

/-- The code `i` links down the chain from `c`. -/
def chainAt (resets : Nat) (l : Lzw) (c : Code) (i : Nat) : Code :=
  (fun n => (readSlot resets l n).pre)^[i] c

theorem chainAt_add (resets : Nat) (l : Lzw) (c : Code) (i j : Nat) :
    chainAt resets l c (i + j) = chainAt resets l (chainAt resets l c j) i :=
  Function.iterate_add_apply _ i j c

/-- A walk is the chain as far as it goes. -/
theorem WalksTo.chainAt {resets : Nat} {l : Lzw} {c d : Code} {syms : List Byte} (h : WalksTo resets l c syms d) :
    chainAt resets l c syms.length = d ∧ ∀ i < syms.length, IsLink resets l (chainAt resets l c i) := by
  induction h with
  | here c => exact ⟨rfl, nofun⟩
  | through c syms d hc hm hpre _ ih =>
    obtain ⟨hend, hlinks⟩ := ih
    refine ⟨hend, fun i hi => ?_⟩
    cases i with
    | zero => exact ⟨hc, hm, hpre⟩
    | succ i => exact hlinks i (Nat.lt_of_succ_lt_succ hi)

/-- A walk that stops meets no slot twice, so it has no more links than the table has slots above the roots. -/
theorem WalksTo.length_le {resets : Nat} {l : Lzw} {c d : Code} {syms : List Byte} (h : WalksTo resets l c syms d)
    (hd : ¬IsLink resets l d) : syms.length ≤ l.maxCode.toNat - l.clearCode.toNat := by
  obtain ⟨hend, hlinks⟩ := h.chainAt
  have hdistinct (i j : Nat) (hij : i < j) (hj : j < syms.length) :
      (Machine.chainAt resets l c i).toNat ≠ (Machine.chainAt resets l c j).toNat := by
    intro he
    have hrest : syms.length - j + j = syms.length := by omega
    have hagain : Machine.chainAt resets l c (syms.length - j + i) = d := by
      rw [chainAt_add, BitVec.eq_of_toNat_eq he, ← chainAt_add, hrest, hend]
    exact hd (hagain ▸ hlinks (syms.length - j + i) (by omega))
  have hcard : (Finset.range syms.length).card ≤ (Finset.Ico l.clearCode.toNat l.maxCode.toNat).card := by
    refine Finset.card_le_card_of_injOn (fun i => (Machine.chainAt resets l c i).toNat) (fun i hi => ?_)
      fun i hi j hj he => ?_
    · obtain ⟨hlow, hmax, -⟩ := hlinks i (Finset.mem_range.mp hi)
      exact Finset.mem_coe.mpr (Finset.mem_Ico.mpr ⟨hlow, hmax⟩)
    · rcases Nat.lt_trichotomy i j with hij | rfl | hji
      · exact absurd he (hdistinct i j hij (Finset.mem_range.mp hj))
      · rfl
      · exact absurd he.symm (hdistinct j i hji (Finset.mem_range.mp hi))
  simpa using hcard

/-- A walk whose chain stops comes to a root in few links, or it raises a cause other than the overflow. -/
theorem walk_of_chainStops {resets : Nat} {l : Lzw} {c : Code} (h : ChainStops resets l c)
    (hroom : l.stack.length + (l.maxCode.toNat - l.clearCode.toNat) < 4096) :
    (∃ syms d, WalksTo resets l c syms d ∧ d.toNat < l.clearCode.toNat
        ∧ syms.length ≤ l.maxCode.toNat - l.clearCode.toNat)
      ∨ ∃ e l1, walk resets c l = .raised e l1 ∧ e ≠ .lzwStackOverflow := by
  obtain ⟨syms, d, hw, hd⟩ := h
  have hlength : syms.length ≤ l.maxCode.toNat - l.clearCode.toNat := by
    refine hw.length_le fun ⟨hlow, hmax, hpre⟩ => ?_
    rcases hd with hroot | hundef | hself
    · omega
    · omega
    · exact hpre hself
  by_cases hroot : d.toNat < l.clearCode.toNat
  · exact .inl ⟨syms, d, hw, hroot, hlength⟩
  · refine .inr ?_
    have hlow := Nat.not_lt.mp hroot
    by_cases hundef : l.maxCode.toNat ≤ d.toNat
    · exact ⟨_, _, walk_to_undefined hw hlow hundef (by omega), nofun⟩
    · have hself := (hd.resolve_left hroot).resolve_left hundef
      exact ⟨_, _, walk_to_selfPrefix hw hlow (Nat.not_le.mp hundef) hself (by omega), nofun⟩

/-! ### The end of a call, and the step -/

/-- What the statement says of a step, for the result of its call. -/
structure ChainSound (resets : Nat) (q : IndexResult × State) : Prop where
  chains : ∀ i, q.1 = .index i → chainsStop resets q.2.lzw
  result : q.2.lzw.result ≠ .corrupt .lzwStackOverflow
  stack : q.2.lzw.stack.length ≤ 4092

theorem raiseCorrupt_chainSound (resets : Nat) {e : Cause} (he : e ≠ .lzwStackOverflow) (s : State) :
    ChainSound resets (raiseCorrupt e s) where
  chains := nofun
  result h := he (LzwResult.corrupt.inj h)
  stack := Nat.zero_le _

/-- The result of an expansion that came to a root. -/
theorem expanded_chainSound {s : State} {c : Code} {d : Byte} {rest : List Byte} (hl : Expanding s.lzw)
    (h : chainsStop s.resets s.lzw)
    (hc : (insertEntry (atRoot d rest s.lzw)).maxCode.toNat ≤ c.toNat
      ∨ ReachesRoot s.resets (insertEntry (atRoot d rest s.lzw)) c)
    (hrest : rest.length ≤ 4092) :
    ChainSound s.resets (.index d, { s with lzw := expanded c d rest s.lzw }) where
  chains _ _ :=
    have hroot : chainsStop s.resets (atRoot d rest s.lzw) :=
      (sameTable_atRoot d rest s.lzw).chainsStop h h.2
    chainsStop_insertThenOld (l := atRoot d rest s.lzw) hl.ready.ranges.clearCode_le_maxCode hl.fresh hroot hc
  result := by
    have he : (expanded c d rest s.lzw).result = s.lzw.result := insertEntry_result _
    simp [he, hl.ready.result]
  stack := (congrArg List.length (insertEntry_stack _)).trans_le hrest

theorem runDefined_chainSound {s : State} {c : Code} (hl : Expanding s.lzw) (hstack : s.lzw.stack = [])
    (hchains : chainsStop s.resets s.lzw) (hc : ChainStops s.resets s.lzw c) :
    ChainSound s.resets (runDefined c s) := by
  have hclear := hl.ready.ranges.clearCode_ge
  have hmax := hl.ready.ranges.maxCode_le
  have hempty : s.lzw.stack.length = 0 := by rw [hstack]; rfl
  rcases walk_of_chainStops hc (by omega) with ⟨syms, d, hw, hd, hlength⟩ | ⟨e, l1, hwalk, he⟩
  · have hroot := (sameTable_atRoot (d.setWidth 8) syms.reverse s.lzw).reachesRoot ⟨syms, d, hw, hd⟩
    rw [runDefined_to_root hstack hw hd (by omega)]
    exact expanded_chainSound hl hchains (.inr hroot.insertEntry) (by rw [List.length_reverse]; omega)
  · rw [runDefined_raised hwalk]
    exact raiseCorrupt_chainSound _ he _

/-- A KWKWK has a code below 4096, so the table is not full and the walk has room above the symbol pushed first. -/
theorem runKwkwk_chainSound {s : State} {c : Code} (hl : Expanding s.lzw) (hstack : s.lzw.stack = [])
    (hchains : chainsStop s.resets s.lzw) (hc : s.lzw.maxCode.toNat ≤ c.toNat) :
    ChainSound s.resets (runKwkwk c s) := by
  have hclear := hl.ready.ranges.clearCode_ge
  have hbelow := c.isLt
  have hpushed := sameTable_firstPushed s.lzw
  have hroom : (firstPushed s.lzw).stack.length + (s.lzw.maxCode.toNat - s.lzw.clearCode.toNat) < 4096 := by
    rw [firstPushed, List.length_singleton]
    omega
  rcases walk_of_chainStops (hpushed.chainStops (previous_chainStops hchains hl.fresh)) hroom with
    ⟨syms, d, hw, hd, hlength⟩ | ⟨e, l1, hwalk, he⟩
  · replace hw := hpushed.symm.walksTo hw
    replace hlength : syms.length ≤ s.lzw.maxCode.toNat - s.lzw.clearCode.toNat := hlength
    have hcode := kwkwk_chain (l := atRoot (d.setWidth 8) (syms.reverse ++ [s.lzw.firstCode]) s.lzw)
      hl.ready.ranges.clearCode_le_maxCode hc ((sameTable_atRoot _ _ s.lzw).reachesRoot ⟨syms, d, hw, hd⟩)
    rw [runKwkwk_to_root hstack hw hd (by omega)]
    exact expanded_chainSound hl hchains hcode (by rw [length_reverse_append, List.length_singleton]; omega)
  · rw [runKwkwk_raised hstack hwalk]
    exact raiseCorrupt_chainSound _ he _

/-- Every end of a call keeps the chains stopping and the stack far from its depth (R200). -/
theorem CallEnd.chainSound {s : State} {q : IndexResult × State} (h : CallEnd s q) (hready : ReadyForCodes s)
    (hstack : s.lzw.stack = []) (hchains : chainsStop s.resets s.lzw) : ChainSound s.resets q := by
  have hempty : s.lzw.stack.length = 0 := by rw [hstack]; rfl
  cases h with
  | dataEnded s1 hl => exact ⟨nofun, nofun, by rw [endOfData_lzw, hl, hempty]; omega⟩
  | raised e s1 he hl => exact raiseCorrupt_chainSound _ he s1
  | first c hc =>
    rw [runFirst_of_defined (hc.trans_le hready.lzw.ranges.clearCode_le_maxCode)]
    refine ⟨fun _ _ => SameTable.chainsStop (l := s.lzw) ⟨rfl, rfl, rfl⟩ hchains fun _ => .inr (.of_root hc), ?_, ?_⟩
    · simp [hready.lzw.result]
    · exact hempty.trans_le (Nat.zero_le _)
  | literal c hf hc =>
    rw [runLiteral_of_room c (by omega)]
    exact expanded_chainSound ⟨hready.lzw, hf⟩ hchains (.inr (.insertEntry (.of_root hc))) (by omega)
  | defined c hf hlow hc => exact runDefined_chainSound ⟨hready.lzw, hf⟩ hstack hchains (hchains.1 c hlow hc)
  | kwkwk c hf hc => exact runKwkwk_chainSound ⟨hready.lzw, hf⟩ hstack hchains hc

/-- Settles O51, by what the step does to the LZW unit: a pop reads no chain, and every end of a call is sound. -/
theorem stackNeverOverflows : Obligations.StackNeverOverflows := by
  intro s t hd hinv hchains ht
  have hready := readyForCodes_of_engineInv ((tableInv_iff s).mp hinv).1 hd
  have hresets : t.resets = s.resets := congrArg (·.resets) (engineStep_engineFrame ht).host
  have hreset (l : Lzw) (hl : LzwReady l) (_ : chainsStop s.resets l) : chainsStop s.resets (resetTable l) :=
    chainsStop_resetTable s.resets hl.resetTable.ranges
  rw [hresets]
  rcases engineStep_lzw_cases hreset hd hready hchains ht with ⟨v, rest, hstack, hl⟩ | ⟨s1, q, hlast, hend, hl, hindex⟩
  · rw [hl]
    refine ⟨fun _ => (sameTable_stack s.lzw rest).chainsStop hchains hchains.2, ?_, fun hdepth => ?_⟩
    · simp [hready.lzw.result]
    · rw [hstack] at hdepth
      exact Nat.le_of_succ_le hdepth
  · have hresets1 : s1.resets = s.resets := congrArg (·.resets) hlast.frame
    obtain ⟨hstops, hresult, hdepth⟩ := hend.chainSound hlast.ready hlast.stack (hresets1 ▸ hlast.kept)
    rw [hl]
    refine ⟨fun hd' => ?_, hresult, fun _ => hdepth⟩
    obtain ⟨i, hi⟩ := hindex hd'
    exact hresets1 ▸ hstops i hi

end Sys2Proof.Machine
end

section
/-! The raster order: the number of a row among the rows of its frame, the position of a pixel, and the move to the next
one (R235 to R237). -/

namespace Sys2Proof.Machine

/-! ### The rows of an interlaced frame (R236, R237) -/

theorem rowInPass_iff (row pass : Nat) :
    rowInPass row pass = true ↔
      (pass = 1 ∧ row % 8 = 0) ∨ (pass = 2 ∧ row % 8 = 4) ∨ (pass = 3 ∧ row % 4 = 2) ∨ (pass = 4 ∧ row % 2 = 1) := by
  simp [rowInPass, or_assoc]

/-- A row belongs to one pass. -/
theorem rowInPass_unique {row p q : Nat} (hp : rowInPass row p = true) (hq : rowInPass row q = true) : p = q := by
  rw [rowInPass_iff] at hp hq
  omega

/-- `n` rows of a frame of height `h` are filled before the cursor's row, which is in its pass, or the pass's first row
past the frame. -/
structure OnRow (h n : Nat) (c : Cursor) : Prop where
  inPass : rowInPass c.row.toNat c.pass.toNat = true
  near : c.row.toNat < h + (passStep c.pass).toNat
  before : rowsBefore h c.row.toNat c.pass.toNat = n

/-- The four passes, with the rows before a row of each (R236, R237). -/
theorem onRow_iff (h n : Nat) (c : Cursor) :
    OnRow h n c ↔
      (c.pass = 1 ∧ c.row.toNat % 8 = 0 ∧ c.row.toNat < h + 8 ∧ c.row.toNat / 8 = n)
        ∨ (c.pass = 2 ∧ c.row.toNat % 8 = 4 ∧ c.row.toNat < h + 8 ∧ (h + 7) / 8 + c.row.toNat / 8 = n)
        ∨ (c.pass = 3 ∧ c.row.toNat % 4 = 2 ∧ c.row.toNat < h + 4
          ∧ (h + 7) / 8 + (h + 3) / 8 + c.row.toNat / 4 = n)
        ∨ (c.pass = 4 ∧ c.row.toNat % 2 = 1 ∧ c.row.toNat < h + 2
          ∧ (h + 7) / 8 + (h + 3) / 8 + (h + 1) / 4 + c.row.toNat / 2 = n) := by
  obtain ⟨row, col, pass⟩ := c
  constructor
  · rintro ⟨hin, hnear, hbefore⟩
    have hpass {k : BitVec 3} (hp : pass.toNat = k.toNat) : pass = k := BitVec.eq_of_toNat_eq hp
    rcases (rowInPass_iff _ _).mp hin with ⟨hp, hr⟩ | ⟨hp, hr⟩ | ⟨hp, hr⟩ | ⟨hp, hr⟩
    · obtain rfl := hpass (k := 1) hp
      exact .inl ⟨rfl, hr, hnear, hbefore⟩
    · obtain rfl := hpass (k := 2) hp
      exact .inr (.inl ⟨rfl, hr, hnear, hbefore⟩)
    · obtain rfl := hpass (k := 3) hp
      exact .inr (.inr (.inl ⟨rfl, hr, hnear, hbefore⟩))
    · obtain rfl := hpass (k := 4) hp
      exact .inr (.inr (.inr ⟨rfl, hr, hnear, hbefore⟩))
  · rintro (⟨rfl, hr, hnear, hbefore⟩ | ⟨rfl, hr, hnear, hbefore⟩ | ⟨rfl, hr, hnear, hbefore⟩
      | ⟨rfl, hr, hnear, hbefore⟩)
    · exact ⟨(rowInPass_iff _ _).mpr (.inl ⟨rfl, hr⟩), hnear, hbefore⟩
    · exact ⟨(rowInPass_iff _ _).mpr (.inr (.inl ⟨rfl, hr⟩)), hnear, hbefore⟩
    · exact ⟨(rowInPass_iff _ _).mpr (.inr (.inr (.inl ⟨rfl, hr⟩))), hnear, hbefore⟩
    · exact ⟨(rowInPass_iff _ _).mpr (.inr (.inr (.inr ⟨rfl, hr⟩))), hnear, hbefore⟩

/-- When a pass has no row left, the first row of the next pass comes after all of its rows. -/
theorem OnRow.nextPass {h n : Nat} {c : Cursor} (hc : OnRow h n c) (hrow : h ≤ c.row.toNat) (hpass : c.pass.toNat < 4) :
    OnRow h n { c with pass := c.pass + 1, row := passStart (c.pass + 1) } := by
  rw [onRow_iff] at hc ⊢
  rcases hc with ⟨hp, hc⟩ | ⟨hp, hc⟩ | ⟨hp, hc⟩ | ⟨hp, hc⟩ <;> simp only [hp] at hpass ⊢
  · exact .inr (.inl ⟨rfl, rfl, show 4 < h + 8 by omega, show (h + 7) / 8 + 4 / 8 = n by omega⟩)
  · exact .inr (.inr (.inl
      ⟨rfl, rfl, show 2 < h + 4 by omega, show (h + 7) / 8 + (h + 3) / 8 + 2 / 4 = n by omega⟩))
  · exact .inr (.inr (.inr
      ⟨rfl, rfl, show 1 < h + 2 by omega, show (h + 7) / 8 + (h + 3) / 8 + (h + 1) / 4 + 1 / 2 = n by omega⟩))
  · exact absurd hpass (by decide)

theorem row_add_toNat {row : BitVec 17} {h : Nat} (hrow : row.toNat < h) (hh : h < 2 ^ 16) {k : BitVec 17}
    (hk : k.toNat ≤ 8) : (row + k).toNat = row.toNat + k.toNat := by
  rw [BitVec.toNat_add, Nat.mod_eq_of_lt (by omega)]

theorem passStep_le : ∀ p : BitVec 3, (passStep p).toNat ≤ 8 := by decide

/-- The step of a pass leads to the pass's next row. -/
theorem OnRow.nextRow {h n : Nat} {c : Cursor} (hc : OnRow h n c) (hrow : c.row.toNat < h) (hh : h < 2 ^ 16) :
    OnRow h (n + 1) { c with row := c.row + passStep c.pass } := by
  have hadd := row_add_toNat hrow hh (passStep_le c.pass)
  rw [onRow_iff] at hc ⊢
  simp only [hadd]
  rcases hc with ⟨hp, hc⟩ | ⟨hp, hc⟩ | ⟨hp, hc⟩ | ⟨hp, hc⟩
  · have hstep : (passStep c.pass).toNat = 8 := by rw [hp]; rfl
    exact .inl ⟨hp, by omega⟩
  · have hstep : (passStep c.pass).toNat = 8 := by rw [hp]; rfl
    exact .inr (.inl ⟨hp, by omega⟩)
  · have hstep : (passStep c.pass).toNat = 4 := by rw [hp]; rfl
    exact .inr (.inr (.inl ⟨hp, by omega⟩))
  · have hstep : (passStep c.pass).toNat = 2 := by rw [hp]; rfl
    exact .inr (.inr (.inr ⟨hp, by omega⟩))

/-- After the last row of the last pass, every row of the frame has been filled. -/
theorem OnRow.all_rows {h n : Nat} {c : Cursor} (hc : OnRow h n c) (hrow : h ≤ c.row.toNat) (hpass : 4 ≤ c.pass.toNat) :
    n = h := by
  rcases (onRow_iff h n c).mp hc with ⟨hp, -⟩ | ⟨hp, -⟩ | ⟨hp, -⟩ | ⟨-, hr⟩
  · exact absurd (hp ▸ hpass) (by decide)
  · exact absurd (hp ▸ hpass) (by decide)
  · exact absurd (hp ▸ hpass) (by decide)
  · omega

/-- Skipping passes changes neither the column nor the number of rows before the cursor. -/
theorem OnRow.skipPasses {height : BitVec 16} {n : Nat} (turns : Nat) {c : Cursor} (hc : OnRow height.toNat n c) :
    OnRow height.toNat n (skipPasses height turns c) := by
  induction turns generalizing c with
  | zero => exact hc
  | succ turns ih =>
    rw [Machine.skipPasses]
    split_ifs with hskip
    · exact ih (hc.nextPass hskip.1 hskip.2)
    · exact hc

theorem skipPasses_col (height : BitVec 16) (turns : Nat) (c : Cursor) : (skipPasses height turns c).col = c.col := by
  induction turns generalizing c with
  | zero => rfl
  | succ turns ih =>
    rw [skipPasses]
    split_ifs
    · exact ih _
    · rfl

/-- Enough turns come to a row inside the frame, or to the last pass. -/
theorem skipPasses_stops (height : BitVec 16) {turns : Nat} {c : Cursor} (h : 4 ≤ c.pass.toNat + turns) :
    (skipPasses height turns c).row.toNat < height.toNat ∨ 4 ≤ (skipPasses height turns c).pass.toNat := by
  induction turns generalizing c with
  | zero => exact .inr h
  | succ turns ih =>
    rw [skipPasses]
    split_ifs with hskip
    · exact ih (show 4 ≤ (c.pass + 1).toNat + turns by bv_omega)
    · omega

/-! ### The position of a pixel (R235 to R237) -/

/-- How many rows of the frame are filled before the cursor's row. -/
def rowNumber (f : FrameCfg) (c : Cursor) : Nat :=
  if f.interlace then rowsBefore f.height.toNat c.row.toNat c.pass.toNat else c.row.toNat

theorem rowNumber_sequential {f : FrameCfg} (hil : f.interlace = false) (c : Cursor) : rowNumber f c = c.row.toNat :=
  if_neg (by simp [hil])

theorem rowNumber_interlaced {f : FrameCfg} (hil : f.interlace = true) (c : Cursor) :
    rowNumber f c = rowsBefore f.height.toNat c.row.toNat c.pass.toNat :=
  if_pos hil

/-- The cursor stands on fill position `n` of the frame, inside it. -/
structure OnPosition (f : FrameCfg) (n : Nat) (c : Cursor) : Prop where
  row : c.row.toNat < f.height.toNat
  col : c.col.toNat < f.width.toNat
  inPass : f.interlace = true → rowInPass c.row.toNat c.pass.toNat = true
  count : n = rowNumber f c * f.width.toNat + c.col.toNat

theorem cursorOnPosition_iff (s : State) :
    cursorOnPosition s = true ↔ OnPosition s.cfg s.regs.pixCount.toNat s.cur := by
  have hfields : OnPosition s.cfg s.regs.pixCount.toNat s.cur ↔
      (s.cur.row.toNat < s.cfg.height.toNat ∧ s.cur.col.toNat < s.cfg.width.toNat)
        ∧ (s.cfg.interlace = true → rowInPass s.cur.row.toNat s.cur.pass.toNat = true)
        ∧ s.regs.pixCount.toNat = rowNumber s.cfg s.cur * s.cfg.width.toNat + s.cur.col.toNat :=
    ⟨fun ⟨hrow, hcol, hpass, hcount⟩ => ⟨⟨hrow, hcol⟩, hpass, hcount⟩,
      fun ⟨⟨hrow, hcol⟩, hpass, hcount⟩ => ⟨hrow, hcol, hpass, hcount⟩⟩
  rw [hfields, rowNumber]
  cases hil : s.cfg.interlace <;> simp [cursorOnPosition, hil]

/-- The first position of a frame that has pixels (R235, R236). -/
theorem onPosition_first {f : FrameCfg} (hw : 0 < f.width.toNat) (hh : 0 < f.height.toNat) :
    OnPosition f 0 { row := 0, col := 0, pass := 1 } :=
  ⟨hh, hw, fun _ => rfl, by simp [rowNumber, rowsBefore]⟩

/-- A pixel has one position (R237): its row belongs to one pass. -/
theorem OnPosition.unique {f : FrameCfg} {m n : Nat} {c d : Cursor} (hc : OnPosition f m c) (hd : OnPosition f n d)
    (hrow : c.row = d.row) (hcol : c.col = d.col) : m = n := by
  have hnumber : rowNumber f c = rowNumber f d := by
    cases hil : f.interlace
    · rw [rowNumber_sequential hil, rowNumber_sequential hil, hrow]
    · have hpass := rowInPass_unique (hc.inPass hil) (hrow ▸ hd.inPass hil)
      rw [rowNumber_interlaced hil, rowNumber_interlaced hil, hrow, hpass]
  rw [hc.count, hd.count, hnumber, hcol]

/-! ### The move to the next pixel -/

/-- The cursor at the start of the row that is filled next. -/
def toNextRow (f : FrameCfg) (c : Cursor) : Cursor :=
  if f.interlace then skipPasses f.height 4 { c with col := 0, row := c.row + passStep c.pass }
  else { c with col := 0, row := c.row + 1 }

theorem advance_at_row_end {f : FrameCfg} {c : Cursor} (h : c.col + 1 = f.width) : advance f c = toNextRow f c :=
  if_pos h

theorem advance_in_row {f : FrameCfg} {c : Cursor} (h : c.col + 1 ≠ f.width) :
    advance f c = { c with col := c.col + 1 } := if_neg h

/-- The cursor stands at the start of a row with `n` rows filled before it. -/
structure AtRowStart (f : FrameCfg) (n : Nat) (c : Cursor) : Prop where
  row : c.row.toNat < f.height.toNat
  col : c.col = 0
  inPass : f.interlace = true → rowInPass c.row.toNat c.pass.toNat = true
  number : rowNumber f c = n

/-- The next row of a sequential frame (R235). -/
theorem toNextRow_sequential {f : FrameCfg} {c : Cursor} (hil : f.interlace = false)
    (hrow : c.row.toNat < f.height.toNat) (hleft : c.row.toNat + 1 < f.height.toNat) :
    AtRowStart f (c.row.toNat + 1) (toNextRow f c) := by
  have hadd : (c.row + 1).toNat = c.row.toNat + 1 := row_add_toNat hrow f.height.isLt (k := 1) (by decide)
  have hc : toNextRow f c = { c with col := 0, row := c.row + 1 } := if_neg (by simp [hil])
  rw [hc]
  exact ⟨hadd.trans_lt hleft, rfl, by simp [hil], (rowNumber_sequential hil _).trans hadd⟩

/-- The next row of an interlaced frame (R236): in the same pass, or in the next one that has rows. -/
theorem toNextRow_interlaced {f : FrameCfg} {n : Nat} {c : Cursor} (hil : f.interlace = true)
    (hrow : c.row.toNat < f.height.toNat) (hc : OnRow f.height.toNat n c) (hleft : n + 1 < f.height.toNat) :
    AtRowStart f (n + 1) (toNextRow f c) := by
  obtain ⟨hin, hnear, hbefore⟩ := hc.nextRow hrow f.height.isLt
  have hnext : OnRow f.height.toNat (n + 1) (toNextRow f c) := by
    rw [toNextRow, if_pos hil]
    exact OnRow.skipPasses 4 ⟨hin, hnear, hbefore⟩
  have hstop : (toNextRow f c).row.toNat < f.height.toNat ∨ 4 ≤ (toNextRow f c).pass.toNat := by
    rw [toNextRow, if_pos hil]
    exact skipPasses_stops f.height (Nat.le_add_left 4 _)
  have hcol : (toNextRow f c).col = 0 := by
    rw [toNextRow, if_pos hil, skipPasses_col]
  refine ⟨hstop.elim id fun hpass => ?_, hcol, fun _ => hnext.inPass, (rowNumber_interlaced hil _).trans hnext.before⟩
  by_contra hpast
  exact hleft.ne (hnext.all_rows (Nat.not_lt.mp hpast) hpass)

/-- While rows are left, the next row is inside the frame, and one more row is filled before it. -/
theorem OnPosition.toNextRow {f : FrameCfg} {n : Nat} {c : Cursor} (h : OnPosition f n c)
    (hleft : rowNumber f c + 1 < f.height.toNat) : AtRowStart f (rowNumber f c + 1) (toNextRow f c) := by
  cases hil : f.interlace
  · rw [rowNumber_sequential hil] at hleft ⊢
    exact toNextRow_sequential hil h.row hleft
  · refine toNextRow_interlaced hil h.row ⟨h.inPass hil, Nat.lt_add_right _ h.row, ?_⟩ hleft
    exact (rowNumber_interlaced hil c).symm

/-- While pixels are left, the cursor moves to the next position (R235, R236). -/
theorem OnPosition.advance {f : FrameCfg} {n : Nat} {c : Cursor} (h : OnPosition f n c)
    (hleft : n + 1 < f.width.toNat * f.height.toNat) : OnPosition f (n + 1) (advance f c) := by
  have hcount := h.count
  have hcol := h.col
  by_cases hend : c.col + 1 = f.width
  · have hwidth : c.col.toNat + 1 = f.width.toNat := by bv_omega
    have hnext : n + 1 = (rowNumber f c + 1) * f.width.toNat := by rw [Nat.succ_mul]; omega
    have hrows : rowNumber f c + 1 < f.height.toNat := by
      rw [hnext, Nat.mul_comm] at hleft
      exact Nat.lt_of_mul_lt_mul_left hleft
    obtain ⟨hrow, hcol', hpass, hnumber⟩ := h.toNextRow hrows
    rw [advance_at_row_end hend]
    exact ⟨hrow, by rw [hcol']; exact Nat.zero_lt_of_lt hcol, hpass, by rw [hnumber, hcol', hnext]; rfl⟩
  · rw [advance_in_row hend]
    have hcol' : (c.col + 1).toNat = c.col.toNat + 1 := by bv_omega
    have hinside : c.col.toNat + 1 ≠ f.width.toNat := fun he => hend (BitVec.eq_of_toNat_eq (hcol'.trans he))
    exact ⟨h.row, show (c.col + 1).toNat < f.width.toNat by omega, h.inPass,
      show n + 1 = rowNumber f c * f.width.toNat + (c.col + 1).toNat by omega⟩

end Sys2Proof.Machine
end

section
/-! The raster invariant through a step: what each end of an engine step and each host operation makes of it (R231,
R234, R241), and that a position is one pixel (R237). -/

namespace Sys2Proof.Machine

/-! ### The invariant by phase -/

theorem rasterInv_idle {s : State} (hp : s.phase = .idle) : rasterInv s = true := by
  rw [rasterInv, hp]

theorem rasterInv_iff_of_root {s : State} (hp : s.phase = .root) :
    rasterInv s = true ↔
      cfgConsistent s.cfg = true ∧ s.regs.pixCount = 0 ∧ s.cur = { row := 0, col := 0, pass := 1 } := by
  simp only [rasterInv, hp, Bool.and_eq_true, decide_eq_true_eq, and_assoc]

theorem rasterInv_iff_of_fill {s : State} (hp : s.phase = .fill) :
    rasterInv s = true ↔
      cfgConsistent s.cfg = true ∧ s.regs.pixCount.toNat < s.cfg.total.toNat
        ∧ OnPosition s.cfg s.regs.pixCount.toNat s.cur := by
  simp only [rasterInv, hp, Bool.and_eq_true, decide_eq_true_eq, cursorOnPosition_iff, and_assoc]

theorem rasterInv_iff_of_tail {s : State} (hp : s.phase = .tail) :
    rasterInv s = true ↔ cfgConsistent s.cfg = true ∧ s.regs.pixCount = s.cfg.total := by
  simp only [rasterInv, hp, Bool.and_eq_true, decide_eq_true_eq]

theorem rasterInv_iff_of_drain {s : State} (hp : s.phase = .drain) :
    rasterInv s = true ↔ cfgConsistent s.cfg = true ∧ s.regs.pixCount.toNat ≤ s.cfg.total.toNat := by
  simp only [rasterInv, hp, Bool.and_eq_true, decide_eq_true_eq]

/-- Reading the stream does not reach the raster's part of the state. -/
theorem rasterInv_of_blankStream {s t : State} (h : blankStream t = blankStream s) (hs : rasterInv s = true) :
    rasterInv t = true := by
  have hblank (u : State) : rasterInv (blankStream u) = rasterInv u := rfl
  rwa [← hblank, h, hblank]

/-! ### The ends of a step -/

/-- A valid root byte starts the frame at its first pixel, or, when it has none, with all of them written (R232,
R233). -/
theorem rasterInv_startDecoding {s : State} (hp : s.phase = .root) (h : rasterInv s = true) (r : Byte) :
    rasterInv (startDecoding r s) = true := by
  obtain ⟨hcfg, hcount, hcur⟩ := (rasterInv_iff_of_root hp).mp h
  by_cases hzero : s.cfg.total = 0
  · have hphase : (startDecoding r s).phase = .tail := if_pos hzero
    exact (rasterInv_iff_of_tail hphase).mpr ⟨hcfg, hcount.trans hzero.symm⟩
  · have hphase : (startDecoding r s).phase = .fill := if_neg hzero
    have htotal := ((cfgConsistent_iff _).mp hcfg).1
    have hpos : 0 < s.cfg.width.toNat * s.cfg.height.toNat := by
      rw [← htotal]
      exact Nat.pos_of_ne_zero fun he => hzero (BitVec.eq_of_toNat_eq he)
    have hfirst := onPosition_first (Nat.pos_of_mul_pos_right hpos) (Nat.pos_of_mul_pos_left hpos)
    refine (rasterInv_iff_of_fill hphase).mpr ⟨hcfg, ?_, ?_⟩
    · show s.regs.pixCount.toNat < s.cfg.total.toNat
      rw [hcount, htotal]
      exact hpos
    · show OnPosition s.cfg s.regs.pixCount.toNat s.cur
      rw [hcount, hcur]
      exact hfirst

/-- A pixel write moves the count and the cursor to the next position, or, after the last pixel, the phase to TAIL
(R231, R234). -/
theorem rasterInv_pixel {s : State} (hp : s.phase = .fill) (h : rasterInv s = true) (i : Byte) :
    rasterInv (toTailWhenFull (writePixel i s)) = true := by
  obtain ⟨hcfg, hleft, hpos⟩ := (rasterInv_iff_of_fill hp).mp h
  have hcount : (s.regs.pixCount + 1).toNat = s.regs.pixCount.toNat + 1 := by bv_omega
  unfold toTailWhenFull
  split_ifs with hfull
  · exact (rasterInv_iff_of_tail rfl).mpr ⟨hcfg, hfull⟩
  · have hmore : s.regs.pixCount.toNat + 1 < s.cfg.total.toNat :=
      lt_of_le_of_ne hleft fun he => hfull (BitVec.eq_of_toNat_eq (hcount.trans he))
    have hnext := hpos.advance (((cfgConsistent_iff _).mp hcfg).1 ▸ hmore)
    rw [← hcount] at hmore hnext
    exact (rasterInv_iff_of_fill (s := writePixel i s) hp).mpr ⟨hcfg, hmore, hnext⟩

theorem rasterInv_corruptExit {s : State} (hcfg : cfgConsistent s.cfg = true)
    (hcount : s.regs.pixCount.toNat ≤ s.cfg.total.toNat) (c : Cause) : rasterInv (corruptExit c s) = true := by
  unfold corruptExit
  split_ifs
  · exact rasterInv_idle rfl
  · exact (rasterInv_iff_of_drain rfl).mpr ⟨hcfg, hcount⟩

theorem rasterInv_fillResult {s : State} (hp : s.phase = .fill) (h : rasterInv s = true) (r : IndexResult) :
    rasterInv (fillResult r s) = true := by
  obtain ⟨hcfg, hleft, -⟩ := (rasterInv_iff_of_fill hp).mp h
  cases r with
  | index i => exact rasterInv_pixel hp h i
  | endOfData => exact rasterInv_idle rfl
  | corrupt c => exact rasterInv_corruptExit hcfg hleft.le c

theorem rasterInv_tailResult {s : State} (hp : s.phase = .tail) (h : rasterInv s = true) (r : IndexResult) :
    rasterInv (tailResult r s) = true := by
  obtain ⟨hcfg, hall⟩ := (rasterInv_iff_of_tail hp).mp h
  cases r with
  | index i => exact (rasterInv_iff_of_tail hp).mpr ⟨hcfg, hall⟩
  | endOfData => exact rasterInv_idle rfl
  | corrupt c => exact rasterInv_corruptExit hcfg (by rw [hall]) c

theorem StepEnd.rasterInv {s t : State} (h : StepEnd s t) (hs : rasterInv s = true) : rasterInv t = true := by
  cases h with
  | skipped => exact hs
  | finished c => exact rasterInv_idle rfl
  | filled r hp => exact rasterInv_fillResult hp hs r
  | tailed r hp => exact rasterInv_tailResult hp hs r
  | rootAccepted r hp => exact rasterInv_startDecoding (s := setRootByte r s) hp hs r
  | rootRefused r hp =>
    obtain ⟨hcfg, hcount, -⟩ := (rasterInv_iff_of_root hp).mp hs
    exact (rasterInv_iff_of_drain rfl).mpr ⟨hcfg, show s.regs.pixCount.toNat ≤ _ by rw [hcount]; exact Nat.zero_le _⟩

theorem engineMove_rasterInv {s t : State} (hs : rasterInv s = true) (h : engineMove s = .next t) :
    rasterInv t = true := by
  obtain ⟨s1, hread, hend⟩ := engineMove_readThenEnd h
  exact hend.rasterInv (rasterInv_of_blankStream hread.frame hs)

/-! ### Host operations -/

/-- The working copies that START latches agree with each other (R35). -/
theorem cfgConsistent_latchCfg (r : HostRegs) : cfgConsistent (latchCfg r) = true :=
  (cfgConsistent_iff _).mpr ⟨latchCfg_total_toNat r, rfl⟩

theorem rasterInv_startFrame {s : State} (hs : rasterInv s = true) : rasterInv (startFrame s) = true := by
  unfold startFrame
  split_ifs
  · exact (rasterInv_iff_of_root rfl).mpr ⟨cfgConsistent_latchCfg s.regs, rfl, rfl⟩
  · exact hs

/-- Of the registers only the count matters. -/
theorem rasterInv_setRegs {s : State} {r : HostRegs} (h : r.pixCount = s.regs.pixCount) (hs : rasterInv s = true) :
    rasterInv { s with regs := r } = true := by
  have hcount :
      rasterInv { s with regs := r } = rasterInv { s with regs := { s.regs with pixCount := r.pixCount } } := rfl
  rwa [hcount, h]

/-- A host operation leaves the raster alone, or ends the frame, or starts a new one. -/
theorem HostEffect.rasterInv {i : Instr} {s t : State} (h : HostEffect i s t) (hs : rasterInv s = true) :
    rasterInv t = true := by
  cases h with
  | replied | ignored | cleared | irqEnabled | loaded | refused => exact hs
  | configured r hr => exact rasterInv_setRegs hr.pixCount hs
  | aborted => exact rasterInv_idle (abortFrame_phase s)
  | restarted => exact rasterInv_startFrame (rasterInv_idle (abortFrame_phase s))
  | started => exact rasterInv_startFrame hs

/-- Settles O42, by who acts in the step. -/
theorem cursorStaysOnItsPosition : Obligations.CursorStaysOnItsPosition := by
  intro s t hs h
  rcases step_cases_by_agent h with ⟨agenda, he⟩ | ⟨w, rest, -, he⟩ | ⟨rest, -, rfl⟩ | ⟨_, _, _, _, _, rfl⟩
  · exact engineMove_rasterInv (s := { s with agenda := agenda }) hs he
  · exact he.rasterInv hs
  · rfl
  · exact hs

/-- Settles O43: position and configuration fix the count. -/
theorem eachPixelHasOnePosition : Obligations.EachPixelHasOnePosition := by
  intro s t hps hpt hs ht hcfg hrow hcol
  obtain ⟨-, -, hpos⟩ := (rasterInv_iff_of_fill hps).mp hs
  obtain ⟨-, -, hpos'⟩ := (rasterInv_iff_of_fill hpt).mp ht
  exact BitVec.eq_of_toNat_eq (hpos.unique (hcfg ▸ hpos') hrow hcol)

end Sys2Proof.Machine
end

section
/-! Every engine step as the rule of its phase (R230), and the terminator of the image's data: reading stops at it, and
a frame that completes by itself has read it (R161, R247). -/

namespace Sys2Proof.Machine

/-! ### The step of a decoding phase as its rule (R234, R244) -/

theorem nextIndex_streamRead {s : State} {q : IndexResult × State} (h : nextIndex s = some q) : StreamRead s q.2 := by
  rw [nextIndex] at h
  cases hheld : heldIndex s with
  | some q' =>
    rw [hheld] at h
    cases h
    exact heldIndex_streamRead hheld
  | none =>
    rw [hheld] at h
    exact nextIndexLoop_streamRead h

theorem settle_of_fill {s : State} (hp : s.phase = .fill) (r : IndexResult) :
    settle r s = .next (updateLzwState (fillResult r s)) := by
  rw [settle, hp]

theorem settle_of_tail {s : State} (hp : s.phase = .tail) (r : IndexResult) :
    settle r s = .next (updateLzwState (tailResult r s)) := by
  rw [settle, hp]

theorem engineStep_of_fill {s : State} (hp : s.phase = .fill) (h : ReadyForCodes s) :
    ∃ q, nextIndex s = some q ∧ engineStep s = .next (updateLzwState (fillResult q.1 q.2)) := by
  obtain ⟨q, hq, he⟩ := engineStep_of_decoding ((decoding_iff s).mpr (.inl hp)) h
  exact ⟨q, hq, he.trans (settle_of_fill ((nextIndex_streamRead hq).phase_eq.trans hp) q.1)⟩

theorem engineStep_of_tail {s : State} (hp : s.phase = .tail) (h : ReadyForCodes s) :
    ∃ q, nextIndex s = some q ∧ engineStep s = .next (updateLzwState (tailResult q.1 q.2)) := by
  obtain ⟨q, hq, he⟩ := engineStep_of_decoding ((decoding_iff s).mpr (.inr hp)) h
  exact ⟨q, hq, he.trans (settle_of_tail ((nextIndex_streamRead hq).phase_eq.trans hp) q.1)⟩

/-- Settles O52, phase by phase. -/
theorem engineStepIsTheRulesStep : Obligations.EngineStepIsTheRulesStep := by
  intro s hinv
  have hready := readyForCodes_of_engineInv hinv
  cases hp : s.phase <;> simp only [ruleStep, hp]
  case idle => exact ⟨s, rfl, engineStep_idle hp⟩
  case root => exact ⟨_, rfl, engineStep_of_root hp⟩
  case fill =>
    obtain ⟨q, hq, he⟩ := engineStep_of_fill hp (hready ((decoding_iff s).mpr (.inl hp)))
    exact ⟨_, by rw [fillStep, hq]; rfl, he⟩
  case tail =>
    obtain ⟨q, hq, he⟩ := engineStep_of_tail hp (hready ((decoding_iff s).mpr (.inr hp)))
    exact ⟨_, by rw [tailStep, hq]; rfl, he⟩
  case drain => exact ⟨_, rfl, engineStep_of_drain hp⟩

/-! ### Reading stops at the terminator (R153, R161) -/

/-- Reading from `s` to `t` takes bytes from the front of the input and stops at the terminator: when it reads it, that
zero byte is the last one taken, and after it no byte is taken. -/
structure StopsAtTerminator (s t : State) : Prop where
  openBefore : s.rd.exhausted = false →
    ∃ taken, s.input = taken ++ t.input ∧ (t.rd.exhausted = true → taken.getLast? = some 0)
  readBefore : s.rd.exhausted = true → t.input = s.input ∧ t.rd.exhausted = true

namespace StopsAtTerminator

variable {s t u : State}

/-- A change that takes no byte. -/
theorem of_same_input (hin : t.input = s.input) (hx : t.rd.exhausted = s.rd.exhausted) : StopsAtTerminator s t where
  openBefore ho := ⟨[], hin.symm, fun ht => by rw [hx, ho] at ht; cases ht⟩
  readBefore hr := ⟨hin, hx.trans hr⟩

theorem trans (h : StopsAtTerminator s t) (h' : StopsAtTerminator t u) : StopsAtTerminator s u where
  openBefore ho := by
    obtain ⟨taken, hin, hlast⟩ := h.openBefore ho
    cases hx : t.rd.exhausted with
    | true =>
      obtain ⟨hin', -⟩ := h'.readBefore hx
      exact ⟨taken, by rw [hin', hin], fun _ => hlast hx⟩
    | false =>
      obtain ⟨taken', hin', hlast'⟩ := h'.openBefore hx
      refine ⟨taken ++ taken', by rw [hin, hin', List.append_assoc], fun hu => ?_⟩
      rw [List.getLast?_append, hlast' hu, Option.some_or]
  readBefore hr := by
    obtain ⟨hin, hx⟩ := h.readBefore hr
    obtain ⟨hin', hx'⟩ := h'.readBefore hx
    exact ⟨hin'.trans hin, hx'⟩

/-- Bytes are taken, and none of them is the terminator. -/
theorem of_tookBytes {taken rest : List Byte} (ho : s.rd.exhausted = false) (hin : s.input = taken ++ rest) (n : Nat) :
    StopsAtTerminator s (tookBytes n rest s) where
  openBefore _ := ⟨taken, hin, fun ht => by rw [tookBytes_rd, ho] at ht; cases ht⟩
  readBefore hr := by rw [ho] at hr; cases hr

/-- The terminator is taken. -/
theorem of_terminator {rest : List Byte} (ho : s.rd.exhausted = false) (hin : s.input = 0 :: rest) (n : Nat) :
    StopsAtTerminator s (setExhausted (tookBytes n rest s)) where
  openBefore _ := ⟨[0], hin, fun _ => rfl⟩
  readBefore hr := by rw [ho] at hr; cases hr

end StopsAtTerminator

/-- A sub-block of length 0 has no payload. -/
theorem input_of_terminator {data rest : List Byte} {s : State} (hd : data.length = (0 : Byte).toNat)
    (hin : s.input = 0 :: (data ++ rest)) : s.input = 0 :: rest := by
  rw [List.length_eq_zero_iff.mp hd] at hin
  exact hin

theorem refill_stopsAtTerminator {n : Byte} {data rest : List Byte} {s : State} (ho : s.rd.exhausted = false)
    (hd : data.length = n.toNat) (hin : s.input = n :: (data ++ rest)) :
    StopsAtTerminator s (refill n data (tookBytes (data.length + 1) rest s)) := by
  unfold refill
  split_ifs with h0
  · subst h0
    exact .of_terminator ho (input_of_terminator hd hin) _
  · have htook := StopsAtTerminator.of_tookBytes (taken := n :: data) ho hin (data.length + 1)
    exact htook.trans (.of_same_input rfl (appendData_exhausted _ data))

theorem nextCodeLoop_stopsAtTerminator (w turns : Nat) (s : State) :
    StopsAtTerminator s (nextCodeLoop w turns s).2
      ∧ ((nextCodeLoop w turns s).1 = .endOfStream → (nextCodeLoop w turns s).2.rd.exhausted = true) := by
  induction turns generalizing s with
  | zero => exact ⟨.of_same_input rfl rfl, nofun⟩
  | succ turns ih =>
    rw [nextCodeLoop]
    split_ifs with hbits hx
    · exact ⟨.of_same_input rfl rfl, nofun⟩
    · exact ⟨.of_same_input rfl rfl, fun _ => hx⟩
    · rw [Bool.not_eq_true] at hx
      rcases readSubBlock_cases s with ⟨-, he⟩ | ⟨n, data, rest, hd, hin, he⟩ <;> simp only [he]
      · exact ⟨.of_tookBytes hx (List.append_nil _).symm _, nofun⟩
      · obtain ⟨hstop, hend⟩ := ih (refill n data (tookBytes (data.length + 1) rest s))
        exact ⟨(refill_stopsAtTerminator hx hd hin).trans hstop, hend⟩

theorem nextCode_stopsAtTerminator (w : Nat) (s : State) : StopsAtTerminator s (nextCode w s).2 :=
  (nextCodeLoop_stopsAtTerminator w _ s).1

theorem nextCode_endOfStream {w : Nat} {s : State} (h : (nextCode w s).1 = .endOfStream) :
    (nextCode w s).2.rd.exhausted = true :=
  (nextCodeLoop_stopsAtTerminator w _ s).2 h

/-! ### The end of the data (R185, R187) -/

/-- Reading from `s` has come to the end of the data at `t`: the terminator has been read, and no byte after it. -/
structure ReadsToTerminator (s t : State) : Prop where
  stops : StopsAtTerminator s t
  exhausted : t.rd.exhausted = true

theorem ReadsToTerminator.after {s t u : State} (h : StopsAtTerminator s t) (h' : ReadsToTerminator t u) :
    ReadsToTerminator s u :=
  ⟨h.trans h'.stops, h'.exhausted⟩

/-- What the statement says of the bytes taken. -/
theorem ReadsToTerminator.taken {s t : State} (h : ReadsToTerminator s t) :
    ∃ taken, s.input = taken ++ t.input ∧ (s.rd.exhausted = false → taken.getLast? = some 0) := by
  cases hx : s.rd.exhausted with
  | true => exact ⟨[], (h.stops.readBefore hx).1.symm, nofun⟩
  | false =>
    obtain ⟨taken, hin, hlast⟩ := h.stops.openBefore hx
    exact ⟨taken, hin, fun _ => hlast h.exhausted⟩

theorem ReadsToTerminator.of_setExhausted {s t : State} (h : StopsAtTerminator s (setExhausted t)) :
    ReadsToTerminator s (setExhausted t) :=
  ⟨h, rfl⟩

/-- Once the terminator has been read, nothing more is. -/
theorem ReadsToTerminator.of_exhausted {s t : State} (hx : s.rd.exhausted = true) (hin : t.input = s.input)
    (hx' : t.rd.exhausted = s.rd.exhausted) : ReadsToTerminator s t :=
  ⟨.of_same_input hin hx', hx'.trans hx⟩

/-- What follows the reading leaves reader and input alone. -/
theorem ReadsToTerminator.before {s t u : State} (h : ReadsToTerminator s t) (hin : u.input = t.input)
    (hx : u.rd.exhausted = t.rd.exhausted) : ReadsToTerminator s u :=
  ⟨h.stops.trans (.of_same_input hin hx), hx.trans h.exhausted⟩

theorem runEnd_endOfData {s t : State} (h : runEnd s = (.endOfData, t)) : ReadsToTerminator s t := by
  cases hx : s.rd.exhausted with
  | true =>
    rw [runEnd_of_exhausted hx] at h
    cases h
    exact .of_exhausted hx rfl rfl
  | false =>
    rcases readSubBlock_cases (discard s) with ⟨-, he⟩ | ⟨n, data, rest, hd, hin, he⟩
    · rw [runEnd_of_eof hx he] at h
      cases h
    · rw [runEnd_of_block hx he] at h
      split_ifs at h with h0 <;> cases h
      subst h0
      have hread := StopsAtTerminator.of_terminator (s := discard s) hx (input_of_terminator hd hin) (data.length + 1)
      exact .before (.after (t := discard s) (.of_same_input rfl rfl) (.of_setExhausted hread)) rfl rfl

theorem popAttempt_ne_endOfData (a : Attempt) (s : State) : (popAttempt a s).1 ≠ .endOfData := by
  cases a <;> nofun

theorem runFirst_ne_endOfData (c : Code) (s : State) : (runFirst c s).1 ≠ .endOfData := by
  unfold runFirst
  cases firstCodeOp c s.lzw <;> nofun

theorem nextIndexLoop_endOfData {turns : Nat} {s t : State} (h : nextIndexLoop turns s = some (.endOfData, t)) :
    ReadsToTerminator s t := by
  induction turns generalizing s with
  | zero => cases h
  | succ turns ih =>
    have hcode := nextCode_stopsAtTerminator s.lzw.codeSize.toNat s
    have hfst {q : IndexResult × State} (he : (IndexResult.endOfData, t) = q) : q.1 = .endOfData := he ▸ rfl
    rcases nextIndexLoop_cases h with ⟨hend, he⟩ | ⟨-, he⟩ | ⟨c, s1, hn, hk⟩
    · cases he
      exact ⟨hcode.trans (.of_same_input rfl rfl), nextCode_endOfStream hend⟩
    · cases he
    · rw [hn] at hcode
      refine .after hcode ?_
      rcases hk with ⟨-, he⟩ | ⟨-, he⟩ | ⟨-, he⟩ | ⟨-, he⟩ | ⟨-, he⟩ | ⟨-, he⟩ | ⟨-, he⟩
      · exact .after (t := clearTable s1) (.of_same_input rfl rfl) (ih he)
      · exact runEnd_endOfData he.symm
      · exact absurd (hfst he) (runFirst_ne_endOfData c s1)
      · exact absurd (hfst he) nofun
      · exact absurd (hfst he) (popAttempt_ne_endOfData _ s1)
      · exact absurd (hfst he) (popAttempt_ne_endOfData _ s1)
      · exact absurd (hfst he) (popAttempt_ne_endOfData _ s1)

/-- While no result is held, a call that answers the end of the data has read up to the terminator. -/
theorem nextIndex_endOfData {s t : State} (hr : s.lzw.result = .none) (h : nextIndex s = some (.endOfData, t)) :
    ReadsToTerminator s t := by
  rw [nextIndex] at h
  rcases heldIndex_cases s with ⟨he, -⟩ | ⟨c, he, -⟩ | ⟨-, -, he⟩ | ⟨v, rest, -, -, he⟩
  · rw [hr] at he; cases he
  · rw [hr] at he; cases he
  · rw [he] at h
    exact nextIndexLoop_endOfData h
  · rw [he] at h; cases h

/-! ### The completion of a frame (R242, R243, R247) -/

theorem corruptExit_idle {c : Cause} {s : State} (h : (corruptExit c s).phase = .idle) :
    (corruptExit c s).regs.cause = .inputEof := by
  unfold corruptExit at h ⊢
  split_ifs at h ⊢
  rfl

/-- A FILL step that completes the frame otherwise than by INPUT_EOF has come to the end of the data. -/
theorem fillResult_idle {r : IndexResult} {s : State} (hp : s.phase = .fill) (h : (fillResult r s).phase = .idle)
    (hc : (fillResult r s).regs.cause ≠ .inputEof) : r = .endOfData := by
  cases r with
  | index i =>
    simp only [fillResult, toTailWhenFull] at h
    split_ifs at h
    exact absurd (hp.symm.trans h) nofun
  | endOfData => rfl
  | corrupt c => exact absurd (corruptExit_idle h) hc

/-- A TAIL step that completes the frame otherwise than by INPUT_EOF has come to the end of the data. -/
theorem tailResult_idle {r : IndexResult} {s : State} (hp : s.phase = .tail) (h : (tailResult r s).phase = .idle)
    (hc : (tailResult r s).regs.cause ≠ .inputEof) : r = .endOfData := by
  cases r with
  | index i => exact absurd (hp.symm.trans h) nofun
  | endOfData => rfl
  | corrupt c => exact absurd (corruptExit_idle h) hc

/-- The frame of `s` has completed at `t`: its terminator has been read and no byte after it, and the cause is OK only
after TAIL, where all pixels have been counted (R244, R247). -/
structure CompletedAtTerminator (s t : State) : Prop where
  read : ReadsToTerminator s t
  ok : t.regs.cause = .ok → s.phase = .tail ∧ t.regs.pixCount = s.regs.pixCount

theorem fill_completion {s t : State} (hp : s.phase = .fill) (h : ReadyForCodes s) (ht : engineStep s = .next t)
    (hidle : t.phase = .idle) (hc : t.regs.cause ≠ .inputEof) : CompletedAtTerminator s t := by
  obtain ⟨⟨r, u⟩, hq, he⟩ := engineStep_of_fill hp h
  cases he.symm.trans ht
  obtain rfl : r = .endOfData := fillResult_idle ((nextIndex_streamRead hq).phase_eq.trans hp) hidle hc
  exact ⟨(nextIndex_endOfData h.lzw.result hq).before rfl rfl, nofun⟩

theorem tail_completion {s t : State} (hp : s.phase = .tail) (h : ReadyForCodes s) (ht : engineStep s = .next t)
    (hidle : t.phase = .idle) (hc : t.regs.cause ≠ .inputEof) : CompletedAtTerminator s t := by
  obtain ⟨⟨r, u⟩, hq, he⟩ := engineStep_of_tail hp h
  cases he.symm.trans ht
  have hread := nextIndex_streamRead hq
  obtain rfl : r = .endOfData := tailResult_idle (hread.phase_eq.trans hp) hidle hc
  exact ⟨(nextIndex_endOfData h.lzw.result hq).before rfl rfl, fun _ => ⟨hp, congrArg (·.regs.pixCount) hread.frame⟩⟩

/-- The ROOT step completes a frame by INPUT_EOF only (R232). -/
theorem rootStep_idle {s : State} (h : (rootStep s).phase = .idle) : (rootStep s).regs.cause = .inputEof := by
  unfold rootStep at h ⊢
  rcases takeByte_cases s with ⟨-, ht⟩ | ⟨b, rest, -, ht⟩ <;> simp only [ht] at h ⊢
  · rfl
  · split_ifs at h
    simp only [updateLzwState_phase, startDecoding_phase] at h
    split_ifs at h

theorem drain_completion {s : State} (hp : s.phase = .drain) (hpend : s.pend ∈ drainCauses)
    (hidle : (drainStep s).phase = .idle) (hc : (drainStep s).regs.cause ≠ .inputEof) :
    CompletedAtTerminator s (drainStep s) := by
  have hok : s.pend ≠ .ok := fun he => absurd (he ▸ hpend) (by decide)
  unfold drainStep at hidle hc ⊢
  rcases drainRead_cases (discard s) with ⟨hx, he⟩ | ⟨hx, ⟨-, he⟩ | ⟨n, data, rest, hd, hin, he⟩⟩
  · rw [he]
    exact ⟨.of_exhausted hx rfl rfl, fun h => absurd h hok⟩
  · rw [he] at hc
    exact absurd rfl hc
  · split_ifs at he with h0 <;> rw [he] at hidle ⊢
    · subst h0
      have hread := StopsAtTerminator.of_terminator hx (input_of_terminator hd hin) (data.length + 1)
      exact ⟨.before (.after (t := discard s) (.of_same_input rfl rfl) (.of_setExhausted hread)) rfl rfl,
        fun h => absurd h hok⟩
    · exact absurd (hp.symm.trans hidle) nofun

theorem engineStep_completion {s t : State} (hinv : engineInv s = true) (hbusy : s.phase ≠ .idle)
    (h : engineStep s = .next t) (hidle : t.phase = .idle) (hc : t.regs.cause ≠ .inputEof) :
    CompletedAtTerminator s t := by
  have hready := readyForCodes_of_engineInv hinv
  cases hp : s.phase with
  | idle => exact absurd hp hbusy
  | root =>
    cases (engineStep_of_root hp).symm.trans h
    exact absurd (rootStep_idle hidle) hc
  | fill => exact fill_completion hp (hready ((decoding_iff s).mpr (.inl hp))) h hidle hc
  | tail => exact tail_completion hp (hready ((decoding_iff s).mpr (.inr hp))) h hidle hc
  | drain =>
    cases (engineStep_of_drain hp).symm.trans h
    obtain ⟨-, -, hpend⟩ := (engineInv_iff s).mp hinv
    exact drain_completion hp (hpend hp) hidle hc

/-- Settles O55: the move is a step, since a wait completes nothing; in TAIL the raster invariant has all pixels
counted. -/
theorem completionFollowsTheTerminator : Obligations.CompletionFollowsTheTerminator := by
  intro s t hinv hbusy hmove hidle hc
  rcases engineMove_cases hmove with hstep | ⟨rfl, -, -⟩
  · obtain ⟨hread, hok⟩ := engineStep_completion hinv hbusy hstep hidle hc
    refine ⟨hread.exhausted, hread.taken, fun hcause hraster => ?_⟩
    obtain ⟨hp, hcount⟩ := hok hcause
    exact hcount.trans ((rasterInv_iff_of_tail hp).mp hraster).2
  · exact absurd hidle hbusy

end Sys2Proof.Machine
end

section
/-! The pixel write of a FILL step, byte by byte (R234, R239, R240). -/

namespace Sys2Proof.Machine

/-! ### The pixel word (R91, R239) -/

/-- The low three bytes of the pixel word are the palette entry's, B first. -/
theorem wordByte_pixelValue_colour (s : State) (i : Byte) {k : Nat} (hk : k < 3) :
    wordByte (pixelValue s i) k = (palRead s i).extractLsb' (8 * k) 8 :=
  BitVec.extractLsb'_append_eq_of_add_le (by omega)

theorem wordByte_pixelValue_alpha (s : State) (i : Byte) : wordByte (pixelValue s i) 3 = pixelAlpha s.cfg i :=
  BitVec.extractLsb'_append_eq_left

/-- Alpha is 0 for the transparent index of an ARGB frame and 0xFF for the others. -/
theorem pixelAlpha_of_transpEn {c : FrameCfg} (h : c.transpEn = true) (i : Byte) :
    pixelAlpha c i = if i = c.transpIdx then 0x00#8 else 0xFF#8 :=
  if_pos h

/-! ### The bytes of a pixel (R63, R64) -/

/-- The address of the cursor's pixel. -/
def cursorAddr (s : State) : Word := pixAddr s.cfg s.cur.row.toNat s.cur.col.toNat

theorem memRead_writePixel_same (i : Byte) {s : State} {k : Nat} (hk : k < s.cfg.bpp.toNat)
    (hbpp : s.cfg.bpp.toNat ≤ 4) :
    memRead (writePixel i s).mem (cursorAddr s + BitVec.ofNat 32 k) = some (wordByte (pixelValue s i) k) :=
  memRead_memWrite_same _ _ _ _ _ hk hbpp

theorem memRead_writePixel_other (i : Byte) {s : State} {b : Word}
    (h : ∀ k, k < s.cfg.bpp.toNat → b ≠ cursorAddr s + BitVec.ofNat 32 k) :
    memRead (writePixel i s).mem b = memRead s.mem b :=
  memRead_memWrite_other _ _ _ _ _ h

/-! ### The end of a step with an index (R234, R244) -/

theorem toTailWhenFull_eq (s : State) :
    toTailWhenFull s = { s with phase := if s.regs.pixCount = s.cfg.total then .tail else s.phase } := by
  unfold toTailWhenFull
  split_ifs <;> rfl

theorem indexDone_of_fill {s : State} (hp : s.phase = .fill) (i : Byte) :
    indexDone i s =
      { s with
        mem := (writePixel i s).mem
        regs := snapshot { s.regs with pixCount := s.regs.pixCount + 1 } s.lzw
        cur := advance s.cfg s.cur
        phase := if s.regs.pixCount + 1 = s.cfg.total then .tail else .fill } := by
  rw [indexDone, if_pos hp, toTailWhenFull_eq, ← hp]
  rfl

theorem indexDone_of_tail {s : State} (hp : s.phase = .tail) (i : Byte) :
    indexDone i s = { s with extra := true, regs := snapshot s.regs s.lzw } :=
  if_neg (by simp [hp])

/-- Settles O40: bytes 0 to 2 of a pixel are the palette entry's, byte 3, in an ARGB frame, is alpha, and a pixel has no
other byte. -/
theorem indexInFillWritesThePixel : Obligations.IndexInFillWritesThePixel := by
  intro s i
  refine ⟨fun hp hbpp => ?_, fun hp => indexDone_of_tail hp i⟩
  have hsize : s.cfg.bpp.toNat = if s.cfg.transpEn then 4 else 3 := by rw [hbpp]; split <;> rfl
  have hbyte {k : Nat} (hk : k < s.cfg.bpp.toNat) :=
    memRead_writePixel_same i hk (show s.cfg.bpp.toNat ≤ 4 by rw [hsize]; split <;> omega)
  have hcolour {k : Nat} (hk : k < 3) : memRead (writePixel i s).mem (cursorAddr s + BitVec.ofNat 32 k) =
      some ((palRead s i).extractLsb' (8 * k) 8) := by
    rw [hbyte (hk.trans_le (by rw [hsize]; split <;> omega)), wordByte_pixelValue_colour s i hk]
  rw [indexDone_of_fill hp i]
  refine ⟨_, cursorAddr s, rfl, rfl, rfl, ?_, hcolour (k := 1) (by decide), hcolour (k := 2) (by decide), fun ht => ?_,
    fun b h0 h1 h2 h3 => ?_⟩
  · simpa using hcolour (k := 0) (by decide)
  · exact (hbyte (k := 3) (by rw [hsize, if_pos ht]; decide)).trans
      (by rw [wordByte_pixelValue_alpha, pixelAlpha_of_transpEn ht])
  · refine memRead_writePixel_other i fun k hk => ?_
    match k with
    | 0 => simpa using h0
    | 1 => exact h1
    | 2 => exact h2
    | 3 => exact h3 (by by_contra ht; rw [hsize, if_neg ht] at hk; omega)
    | k + 4 => rw [hsize] at hk; split at hk <;> omega

end Sys2Proof.Machine
end

section
/-! What an engine step takes first, and the run of the token it fetched (R184, R230, R232, R245); the next states of
the root byte (R232), and the interlaced row orders (R237). -/

namespace Sys2Proof.Machine

/-! ### The grants of a step (R7, R62, R312) -/

theorem engineStep_of_token {s s1 : State} {i : Instr} (h : fetch s = .token i s1) : engineStep s = exec i s1 := by
  rw [engineStep, h]

/-- The engine's move runs the token, or waits when the run would end for want of input. -/
theorem engineMove_of_token {s s1 : State} {i : Instr} (h : fetch s = .token i s1) :
    (∀ t, exec i s1 = .next t → engineMove s = if ranOutOfInput s t && !s.inEof then .next s else .next t)
      ∧ ∀ f, exec i s1 = .fault f → engineMove s = .fault f := by
  rw [← engineStep_of_token h]
  refine ⟨fun t ht => ?_, fun f hf => ?_⟩
  · rw [engineMove, ht]
  · rw [engineMove, hf]

theorem step_of_waitDone {s : State} {rest : List Move} (ha : s.agenda = .waitDone :: rest) (hd : s.regs.done = false) :
    step s = engineMove s := by
  rw [step_of_agenda_cons ha, runMove]
  exact if_neg (by simp [hd])

/-- Settles O2: each kind of grant makes the step the engine's move. -/
theorem stepRunsFetchedToken : Obligations.StepRunsFetchedToken := by
  intro s s1 i hf
  have hmove := engineMove_of_token hf
  refine ⟨fun hgrant => ?_, fun s0 ha hs => ?_⟩
  · rcases hgrant with ha | ⟨hd, rest, ha⟩
    · rwa [step_of_agenda_nil ha]
    · rwa [step_of_waitDone ha hd]
  · rw [step_of_agenda_cons ha, runMove, hs]
    exact hmove

/-! ### The first token of a FILL or TAIL step (R184, R198, R202) -/

theorem fetch_of_held {s s1 : State} {r : IndexResult} (hd : decoding s = true) (h : heldIndex s = some (r, s1)) :
    fetch s = .result r s1 := by
  rw [fetch_decoding hd, fetchIndex, h]

theorem heldIndex_endOfData {s : State} (h : s.lzw.result = .endOfData) : heldIndex s = some (.endOfData, s) := by
  rw [heldIndex, h]

theorem heldIndex_corrupt {s : State} {c : Cause} (h : s.lzw.result = .corrupt c) :
    heldIndex s = some (.corrupt c, s) := by
  rw [heldIndex, h]

theorem heldIndex_symbol {s : State} {v : Byte} {rest : List Byte} (hr : s.lzw.result = .none)
    (hs : s.lzw.stack = v :: rest) :
    heldIndex s = some (.index v, { s with lzw := { s.lzw with stack := rest } }) := by
  simp [heldIndex, hr, hs, pop]

theorem engineStep_of_result {s s1 : State} {r : IndexResult} (h : fetch s = .result r s1) :
    engineStep s = settle r s1 := by
  rw [engineStep, h]

/-- With no result held and an empty stack the step begins with a code. -/
theorem fetch_of_empty {s : State} (hd : decoding s = true) (hr : s.lzw.result = .none) (hs : s.lzw.stack = []) :
    fetch s = fetchCode s := by
  rw [fetch_decoding hd, fetchIndex, heldIndex_none hr hs]

/-! ### The token of a code read (R153, R155) -/

theorem fetchCode_of_enough {s : State} (h : s.lzw.codeSize.toNat ≤ s.rd.nbits.toNat) :
    fetchCode s =
      .token (decodeCode (codeContext s.lzw) (takeCode s.lzw.codeSize.toNat s.rd).1)
        { s with rd := (takeCode s.lzw.codeSize.toNat s.rd).2 } :=
  if_pos h

theorem fetchCode_of_exhausted {s : State} (hlt : s.rd.nbits.toNat < s.lzw.codeSize.toNat)
    (hx : s.rd.exhausted = true) : fetchCode s = .result (streamEnded s).1 (streamEnded s).2 := by
  rw [fetchCode, if_neg (Nat.not_le.mpr hlt), if_pos hx]

theorem fetchCode_of_byte {s : State} {b : Byte} {rest : List Byte} (hlt : s.rd.nbits.toNat < s.lzw.codeSize.toNat)
    (hx : s.rd.exhausted = false) (hin : s.input = b :: rest) :
    fetchCode s = .token (decodeSub b) (tookBytes 1 rest s) := by
  rw [fetchCode, if_neg (Nat.not_le.mpr hlt), if_neg (by simp [hx]), takeByte_cons hin]
  rfl

/-! ### The first byte of a ROOT or DRAIN step (R232, R245) -/

theorem fetch_rootByte {s : State} {b : Byte} {rest : List Byte} (hp : s.phase = .root)
    (hin : s.input = b :: rest) : fetch s = .token (decodeRoot b) (tookBytes 1 rest s) := by
  rw [fetch_root hp, fetchRoot, takeByte_cons hin]
  rfl

theorem fetch_drainByte {s : State} {b : Byte} {rest : List Byte} (hp : s.phase = .drain)
    (hx : s.rd.exhausted = false) (hin : s.input = b :: rest) :
    fetch s = .token (decodeSub b) (tookBytes 1 rest (discard s)) := by
  rw [fetch_drain hp, fetchDrain, if_neg (by simp [hx]), takeByte_cons (s := discard s) hin]
  rfl

/-- Settles O3: what the LZW unit holds, else a code, the end of the data, or the next byte. -/
theorem fetchTakesTheNextToken : Obligations.FetchTakesTheNextToken := by
  intro s
  refine ⟨fun hd hr => fetch_of_held hd (heldIndex_endOfData hr),
    fun c hd hr => fetch_of_held hd (heldIndex_corrupt hr), fun v rest hd hr hs => ?_, fun hd hr hs hlt hx => ?_, fun hd hr hs hle => ?_,
    fun b rest hin => ⟨fun hp => fetch_rootByte hp hin, fun hd hr hs hlt hx => ?_,
      fun hp hx => fetch_drainByte hp hx hin⟩⟩
  · rw [engineStep_of_result (fetch_of_held hd (heldIndex_symbol hr hs))]
    exact settle_index v _ hd
  · rw [engineStep_of_result ((fetch_of_empty hd hr hs).trans (fetchCode_of_exhausted hlt hx))]
    exact settle_endOfData { s with noEnd := true } hd
  · exact (fetch_of_empty hd hr hs).trans (fetchCode_of_enough hle)
  · exact (fetch_of_empty hd hr hs).trans (fetchCode_of_byte hlt hx hin)

/-! ### The root byte (R232) and the row orders (R237) -/

theorem exec_rootValid {s : State} (hp : s.phase = .root) (r : Byte) :
    exec (.rootValid r) s = .next (updateLzwState (startDecoding r (setRootByte r s))) := by
  rw [exec, execRootValid, hp]

theorem exec_rootInvalid {s : State} (hp : s.phase = .root) (r : Byte) :
    exec (.rootInvalid r) s = .next { reinit (setRootByte r s) with pend := .badRoot, phase := .drain } := by
  rw [exec, execRootInvalid, hp]

/-- Settles O37: the statement writes out the next states of the two rows. -/
theorem rootByteStartsDecoding : Obligations.RootByteStartsDecoding :=
  fun _ r hp => ⟨exec_rootValid hp r, exec_rootInvalid hp r⟩

/-- Settles O41, by running the cursor through each frame. -/
theorem interlacedRowOrders : Obligations.InterlacedRowOrders := by
  unfold Obligations.InterlacedRowOrders
  decide

end Sys2Proof.Machine
end

section
/-! No event stops the machine (R270), what moves the interrupt output (R274), and what a valid root byte leaves of an
earlier frame (R273). -/

namespace Sys2Proof.Machine

/-! ### Every event answers a next state (R7, R270) -/

/-- A host operation has an effect in every phase and state: each row it can decode to answers (R88, R95). -/
theorem exec_hostOp_next {i : Instr} (hi : isHostOp i = true) (s : State) : ∃ t, exec i s = .next t := by
  cases i with
  | clear | endCode | first | badFirst | literal | defined | kwkwk | subTerminator | subData | rootValid | rootInvalid =>
    cases hi
  | wrPalData lo data =>
    by_cases hp : s.phase = .idle
    · exact ⟨_, if_pos hp⟩
    · exact ⟨_, if_neg hp⟩
  | _ => exact ⟨_, rfl⟩

/-- The engine's move is its step or the wait, and the invariant gives the step (R230). -/
theorem engineMove_next {s : State} (h : engineInv s = true) : ∃ t, engineMove s = .next t := by
  obtain ⟨u, -, hu⟩ := engineStepIsTheRulesStep s h
  rw [engineMove, hu]
  by_cases hwait : (ranOutOfInput s u && !s.inEof) = true
  · exact ⟨s, if_pos hwait⟩
  · exact ⟨u, if_neg hwait⟩

/-- Settles O49, move by move: the host's moves answer in every state, the engine's under the invariant. -/
theorem everyStepAnswersANextState : Obligations.EveryStepAnswersANextState := by
  intro s hs
  cases ha : s.agenda with
  | nil => rw [step_of_agenda_nil ha]; exact engineMove_next hs
  | cons m rest =>
    rw [step_of_agenda_cons ha]
    cases m with
    | op w => exact exec_hostOp_next (isHostOp_decodeHost w) _
    | engine => exact engineMove_next (s := { s with agenda := rest }) hs
    | waitDone =>
      rw [runMove]
      split_ifs
      · exact ⟨_, rfl⟩
      · exact engineMove_next hs
    | feed | endInput | withdraw | readFrame | reset => exact ⟨_, rfl⟩

/-! ### The interrupt output (R44, R274) -/

theorem irq_iff (s : State) : irq s = true ↔ s.regs.done = true ∧ s.regs.doneIe = true := by
  simp [irq]

/-- From `s` to `t` the engine leaves `DONE`, or ends the frame and sets it (R272). -/
def DoneKeptOrSet (s t : State) : Prop :=
  t.regs.done = s.regs.done ∨ (t.phase = .idle ∧ t.regs.done = true)

theorem doneKeptOrSet_finish (c : Cause) (s : State) : DoneKeptOrSet s (finish c s) := .inr ⟨rfl, rfl⟩

theorem doneKeptOrSet_corruptExit (c : Cause) (s : State) : DoneKeptOrSet s (corruptExit c s) := by
  unfold corruptExit
  split_ifs
  · exact doneKeptOrSet_finish .inputEof s
  · exact .inl rfl

theorem doneKeptOrSet_fillResult (r : IndexResult) (s : State) : DoneKeptOrSet s (fillResult r s) := by
  cases r with
  | index i => exact .inl (by simp [fillResult])
  | endOfData => exact doneKeptOrSet_finish .shortData s
  | corrupt c => exact doneKeptOrSet_corruptExit c s

theorem doneKeptOrSet_tailResult (r : IndexResult) (s : State) : DoneKeptOrSet s (tailResult r s) := by
  cases r with
  | index => exact .inl rfl
  | endOfData => exact doneKeptOrSet_finish .ok s
  | corrupt c => exact doneKeptOrSet_corruptExit c s

theorem StepEnd.doneKeptOrSet {s t : State} (h : StepEnd s t) : DoneKeptOrSet s t := by
  cases h with
  | skipped | rootAccepted | rootRefused => exact .inl rfl
  | finished c => exact doneKeptOrSet_finish c s
  | filled r => exact doneKeptOrSet_fillResult r s
  | tailed r => exact doneKeptOrSet_tailResult r s

theorem EngineFrame.doneIe_eq {s t : State} (h : EngineFrame s t) : t.regs.doneIe = s.regs.doneIe :=
  congrArg (·.regs.doneIe) h.host

/-- The engine moves `irq` only by ending a frame, and then `irq` shows the enable (R272, R274). -/
theorem engineMove_irq {s t : State} (h : engineMove s = .next t) :
    irq t = irq s ∨ (s.phase ≠ .idle ∧ t.phase = .idle ∧ irq t = s.regs.doneIe) := by
  by_cases hp : s.phase = .idle
  · rw [engineMove_idle hp] at h
    cases h
    exact .inl rfl
  · have hie := (engineMove_engineFrame h).doneIe_eq
    obtain ⟨s1, hread, hend⟩ := engineMove_readThenEnd h
    have hdone : s1.regs.done = s.regs.done := congrArg (·.regs.done) hread.frame
    rcases hend.doneKeptOrSet with hkept | ⟨hidle, hset⟩
    · exact .inl (by rw [irq, irq, hkept, hdone, hie])
    · exact .inr ⟨hp, hidle, by rw [irq, hset, hie, Bool.true_and]⟩

/-- START never raises `irq`: it clears `DONE`, or is refused (R113, R114). -/
theorem irq_of_irq_startFrame {s : State} (h : irq (startFrame s) = true) : s.phase ≠ .idle ∧ irq s = true := by
  by_cases hp : s.phase = .idle
  · rw [startFrame_of_idle hp] at h
    cases h
  · rw [startFrame_of_busy hp] at h
    exact ⟨hp, h⟩

/-- Of the host's operations ABORT raises `irq`, by ending a frame, and a write of `IRQ_EN` while `DONE` = 1 (R274). -/
theorem HostEffect.irq_rise {i : Instr} {s t : State} (h : HostEffect i s t) (hs : irq s = false) (ht : irq t = true) :
    (s.phase ≠ .idle ∧ t.phase = .idle)
      ∨ (s.regs.done = true ∧ ∃ lo data, i = .wrIrqEn lo data ∧ data.getLsbD 0 = true) := by
  have hlow : ¬ irq s = true := Bool.eq_false_iff.mp hs
  cases h with
  | replied | ignored | loaded | refused => exact absurd ht hlow
  | configured r hr => exact absurd ((irq_iff s).mpr (by rw [← hr.done, ← hr.doneIe]; exact (irq_iff _).mp ht)) hlow
  | aborted =>
    by_cases hp : s.phase = .idle
    · rw [abortFrame_of_idle hp] at ht
      exact absurd ht hlow
    · exact .inl ⟨hp, abortFrame_phase s⟩
  | restarted => exact absurd (abortFrame_phase s) (irq_of_irq_startFrame ht).1
  | started => exact absurd (irq_of_irq_startFrame ht).2 hlow
  | cleared =>
    obtain ⟨hdone, hie⟩ := (irq_iff _).mp ht
    exact absurd ((irq_iff s).mpr ⟨Bool.and_elim_left hdone, hie⟩) hlow
  | irqEnabled lo data hi =>
    obtain ⟨hdone, hie⟩ := (irq_iff _).mp ht
    exact .inr ⟨hdone, lo, data, hi, hie⟩

/-- Settles O59, by who acts in the step: the engine raises `irq` by ending a frame and never lowers it; the moves at the
ports leave it. -/
theorem interruptRisesOnlyByItsCauses : Obligations.InterruptRisesOnlyByItsCauses := by
  intro s t h
  rcases step_cases_by_agent h with ⟨agenda, he⟩ | ⟨w, rest, ha, he⟩ | ⟨rest, ha, rfl⟩ | ⟨_, _, _, _, _, rfl⟩
  · rcases engineMove_irq he with hirq | ⟨hp, hidle, hirq⟩
    · exact ⟨fun hs ht => absurd (hirq.symm.trans ht) (Bool.eq_false_iff.mp hs),
        fun hs ht => absurd (hirq.trans hs) (Bool.eq_false_iff.mp ht)⟩
    · exact ⟨fun _ _ => .inl ⟨hp, hidle⟩,
        fun hs ht => absurd (hirq.trans ((irq_iff s).mp hs).2) (Bool.eq_false_iff.mp ht)⟩
  · refine ⟨fun hs ht => ?_, fun _ _ => .inl ⟨w, rest, ha⟩⟩
    rcases he.irq_rise hs ht with hends | ⟨hdone, lo, data, hw, h0⟩
    · exact .inl hends
    · exact .inr ⟨hdone, w, rest, lo, data, ha, hw, h0⟩
  · exact ⟨nofun, fun _ _ => .inr ⟨rest, ha⟩⟩
  · exact ⟨fun hs ht => absurd ht (Bool.eq_false_iff.mp hs), fun hs ht => absurd hs (Bool.eq_false_iff.mp ht)⟩

/-! ### The valid root byte (R151, R181, R273) -/

/-- `Init` writes every field of the LZW unit but the table's slots (R181, R182). -/
theorem initLzw_eq_but_table (r : Byte) (l l' : Lzw) :
    { initLzw r l with table := [] } = { initLzw r l' with table := [] } :=
  rfl

/-- Settles O60: `Reinit` writes the whole reader, and `Init` all of the LZW unit but the slots. -/
theorem nothingCarriesOverBetweenFrames : Obligations.NothingCarriesOverBetweenFrames := by
  intro s1 s2 t1 t2 r hp1 hp2 h1 h2
  cases (exec_rootValid hp1 r).symm.trans h1
  cases (exec_rootValid hp2 r).symm.trans h2
  exact ⟨rfl, initLzw_eq_but_table r s1.lzw s2.lzw⟩

end Sys2Proof.Machine
end

section
/-! The reset event (R300, R301), and the end of every frame: the bits, the stack and the completion still to come shrink
with each engine step (R313). -/

namespace Sys2Proof.Machine

/-! ### The reset event -/

/-- Settles O5: the move runs `resetBlock`, whose status fields are those of the reset state. -/
theorem resetEvent : Obligations.ResetEvent := by
  intro s rest ha
  have hstatus : statusWord State.reset = 0#32 := registerWord_reset (idx := 2) nofun nofun
  exact ⟨resetBlock { s with agenda := rest }, step_of_agenda_cons ha, rfl, rfl, rfl, hstatus⟩

/-! ### Three ways to have less work left -/

theorem workLeft_eq (s : State) :
    workLeft s = 4097 * bitsLeft s + s.lzw.stack.length + (if s.phase = .idle then 0 else 1) :=
  rfl

section
variable {s t : State} (hbusy : s.phase ≠ .idle)
include hbusy

/-- One bit outweighs a full stack, so a step that takes a bit may push as many symbols as the stack holds. -/
theorem workLeft_lt_of_fewer_bits (hbits : bitsLeft t < bitsLeft s)
    (hstack : t.lzw.stack.length ≤ s.lzw.stack.length + 4096) : workLeft t < workLeft s := by
  rw [workLeft_eq, workLeft_eq, if_neg hbusy]
  split_ifs <;> omega

theorem workLeft_lt_of_shorter_stack (hbits : bitsLeft t ≤ bitsLeft s)
    (hstack : t.lzw.stack.length < s.lzw.stack.length) : workLeft t < workLeft s := by
  rw [workLeft_eq, workLeft_eq, if_neg hbusy]
  split_ifs <;> omega

theorem workLeft_lt_of_completion (hidle : t.phase = .idle) (hbits : bitsLeft t ≤ bitsLeft s)
    (hstack : t.lzw.stack.length ≤ s.lzw.stack.length) : workLeft t < workLeft s := by
  rw [workLeft_eq, workLeft_eq, if_neg hbusy, if_pos hidle]
  omega

end

/-! ### The bits left through the reader (R152, R153) -/

theorem appendData_nbits_le (r : Reader) (data : List Byte) :
    (appendData r data).nbits.toNat ≤ r.nbits.toNat + 8 * data.length := by
  induction data generalizing r with
  | nil => exact Nat.le_refl _
  | cons b data ih =>
    have hbyte : (appendByte r b).nbits.toNat ≤ r.nbits.toNat + 8 :=
      (BitVec.toNat_add r.nbits 8).trans_le (Nat.mod_le _ _)
    have hrest : (appendData r (b :: data)).nbits.toNat ≤ (appendByte r b).nbits.toNat + 8 * data.length := ih _
    rw [List.length_cons]
    omega

/-- A refill moves bits from the input to the buffer, and the length byte is gone. -/
theorem bitsLeft_refill_le {n : Byte} {data rest : List Byte} {s : State} (hin : s.input = n :: (data ++ rest)) :
    bitsLeft (refill n data (tookBytes (data.length + 1) rest s)) ≤ bitsLeft s := by
  have happend := appendData_nbits_le s.rd data
  unfold refill
  split_ifs <;> simp only [bitsLeft, setExhausted, tookBytes_rd, tookBytes_input, hin, List.length_cons,
    List.length_append] <;> omega

theorem bitsLeft_tookAll_le (s : State) : bitsLeft (tookBytes s.input.length [] s) ≤ bitsLeft s :=
  Nat.add_le_add_left (Nat.zero_le _) _

theorem nextCodeLoop_bitsLeft_le {w : Nat} (hw : w ≤ 12) (turns : Nat) (s : State) :
    bitsLeft (nextCodeLoop w turns s).2 ≤ bitsLeft s := by
  induction turns generalizing s with
  | zero => exact Nat.le_refl _
  | succ turns ih =>
    rw [nextCodeLoop]
    split_ifs with hcode
    · exact Nat.add_le_add_right ((takeCode_nbits hw hcode).trans_le (Nat.sub_le _ _)) _
    · exact Nat.le_refl _
    · rcases readSubBlock_cases s with ⟨-, he⟩ | ⟨n, data, rest, -, hin, he⟩ <;> simp only [he]
      · exact bitsLeft_tookAll_le s
      · exact (ih _).trans (bitsLeft_refill_le hin)

theorem nextCode_bitsLeft_le {w : Nat} (hw : w ≤ 12) (s : State) : bitsLeft (nextCode w s).2 ≤ bitsLeft s :=
  nextCodeLoop_bitsLeft_le hw _ s

theorem bitsLeft_discard_le (s : State) : bitsLeft (discard s) ≤ bitsLeft s :=
  Nat.add_le_add_right (Nat.zero_le _) _

/-- A step that takes its first byte has fewer bits left, whatever it does to the buffer's other bits. -/
theorem bitsLeft_lt_of_byte {s t : State} {b : Byte} {rest : List Byte} (hin : s.input = b :: rest)
    (hrest : t.input.length ≤ rest.length) (hempty : t.rd.nbits = 0) : bitsLeft t < bitsLeft s := by
  have hnbits : t.rd.nbits.toNat = 0 := congrArg BitVec.toNat hempty
  rw [bitsLeft, bitsLeft, hin, hnbits, List.length_cons]
  omega

/-! ### The bits left through a NextIndex call (R184, R187) -/

theorem bitsLeft_popAttempt (a : Attempt) (s : State) : bitsLeft (popAttempt a s).2 = bitsLeft s := by
  cases a <;> rfl

theorem bitsLeft_runFirst (c : Code) (s : State) : bitsLeft (runFirst c s).2 = bitsLeft s := by
  unfold runFirst
  cases firstCodeOp c s.lzw <;> rfl

theorem bitsLeft_runEnd_le (s : State) : bitsLeft (runEnd s).2 ≤ bitsLeft s := by
  refine Nat.le_trans ?_ (bitsLeft_discard_le s)
  cases hx : s.rd.exhausted with
  | true => rw [runEnd_of_exhausted hx]; exact Nat.le_refl _
  | false =>
    rcases readSubBlock_cases (discard s) with ⟨-, he⟩ | ⟨n, data, rest, -, hin, he⟩
    · rw [runEnd_of_eof hx he]
      exact bitsLeft_tookAll_le (discard s)
    · have hlt : bitsLeft (tookBytes (data.length + 1) rest (discard s)) < bitsLeft (discard s) :=
        bitsLeft_lt_of_byte hin (by simp) rfl
      rw [runEnd_of_block hx he]
      split_ifs <;> exact hlt.le

/-- The results with which a FILL or TAIL step completes the frame: the data, or the input, has ended (R242 to R244). -/
def EndsFrame (r : IndexResult) : Prop := r = .endOfData ∨ r = .corrupt .inputEof

/-- A call that reads codes takes at least one bit, unless it completes the frame. -/
theorem nextIndexLoop_bitsLeft {turns : Nat} {s : State} {q : IndexResult × State} (h : ReadyForCodes s)
    (hq : nextIndexLoop turns s = some q) :
    bitsLeft q.2 < bitsLeft s ∨ EndsFrame q.1 ∧ bitsLeft q.2 ≤ bitsLeft s := by
  obtain ⟨r, t⟩ := q
  induction turns generalizing s with
  | zero => cases hq
  | succ turns ih =>
    have hle := nextCode_bitsLeft_le h.lzw.ranges.widthMax s
    rcases nextIndexLoop_cases hq with ⟨-, he⟩ | ⟨-, he⟩ | ⟨c, s1, hn, hk⟩
    · rw [he]
      exact .inr ⟨.inl rfl, hle⟩
    · rw [he]
      exact .inr ⟨.inr rfl, hle⟩
    · obtain ⟨h1, hlt⟩ := h.nextCode hn
      suffices hcall : bitsLeft t ≤ bitsLeft s1 from .inl (hcall.trans_lt hlt)
      rcases hk with ⟨-, he⟩ | ⟨-, he⟩ | ⟨-, he⟩ | ⟨-, he⟩ | ⟨-, he⟩ | ⟨-, he⟩ | ⟨-, he⟩
      · exact (ih h1.clearTable he).elim Nat.le_of_lt And.right
      all_goals refine (congrArg (fun q => bitsLeft q.2) he).trans_le ?_
      · exact bitsLeft_runEnd_le s1
      · exact (bitsLeft_runFirst c s1).le
      · exact Nat.le_refl _
      all_goals exact (bitsLeft_popAttempt _ s1).le

/-! ### The stack after a NextIndex call (R190 to R192, R202) -/

theorem popAttempt_stack_of_no_index {a : Attempt} {s : State} (h : ∀ i, (popAttempt a s).1 ≠ .index i) :
    (popAttempt a s).2.lzw.stack = [] := by
  cases a with
  | ok l => exact absurd rfl (h _)
  | raised c l => rfl

theorem runFirst_stack_of_no_index {c : Code} {s : State} (h : ∀ i, (runFirst c s).1 ≠ .index i) :
    (runFirst c s).2.lzw.stack = [] := by
  unfold runFirst at h ⊢
  cases hop : firstCodeOp c s.lzw with
  | ok l => simp [hop] at h
  | raised e l => rfl

/-- A call that is entered with an empty stack leaves symbols only when it answers an index. -/
theorem CallEnd.stack_of_no_index {s : State} {q : IndexResult × State} (h : CallEnd s q) (hstack : s.lzw.stack = [])
    (hq : ∀ i, q.1 ≠ .index i) : q.2.lzw.stack = [] := by
  cases h with
  | dataEnded s1 hl => exact (congrArg Lzw.stack hl).trans hstack
  | raised e s1 _ _ => rfl
  | first c _ => exact runFirst_stack_of_no_index hq
  | literal | defined | kwkwk => exact popAttempt_stack_of_no_index hq

theorem nextIndexLoop_stack_of_no_index {turns : Nat} {s : State} {q : IndexResult × State} (h : ReadyForCodes s)
    (hstack : s.lzw.stack = []) (hq : nextIndexLoop turns s = some q) (hno : ∀ i, q.1 ≠ .index i) :
    q.2.lzw.stack = [] := by
  obtain ⟨s1, hlast, hend⟩ := nextIndexLoop_callEnd (P := fun _ => True) (fun _ _ _ => trivial) h hstack trivial hq
  exact hend.stack_of_no_index hlast.stack hno

theorem nextIndexLoop_depth {turns : Nat} {s : State} {q : IndexResult × State} (h : ReadyForCodes s)
    (hstack : s.lzw.stack = []) (hq : nextIndexLoop turns s = some q) : q.2.lzw.stack.length ≤ 4096 := by
  by_cases hindex : ∃ i, q.1 = .index i
  · obtain ⟨i, hi⟩ := hindex
    exact ((nextIndexLoop_sound h hq).index i hi).depth
  · rw [nextIndexLoop_stack_of_no_index h hstack hq (not_exists.mp hindex)]
    exact Nat.zero_le _

/-! ### The step of each phase -/

theorem settle_bitsLeft {r : IndexResult} {s t : State} (h : settle r s = .next t) : bitsLeft t = bitsLeft s := by
  unfold settle at h
  cases hp : s.phase <;> simp only [hp] at h <;> cases h
  case fill => cases r <;> simp [bitsLeft, fillResult]
  case tail => cases r <;> simp [bitsLeft, tailResult]

theorem EndsFrame.settle_idle {r : IndexResult} {s t : State} (hr : EndsFrame r) (h : settle r s = .next t) :
    t.phase = .idle := by
  unfold settle at h
  cases hp : s.phase <;> simp only [hp] at h <;> cases h
  case fill => rcases hr with rfl | rfl <;> rfl
  case tail => rcases hr with rfl | rfl <;> rfl

/-- A FILL or TAIL step pops a symbol, takes a bit, or completes the frame. -/
theorem decodingStep_workLeft {s t : State} (hbusy : s.phase ≠ .idle) (hd : decoding s = true) (h : ReadyForCodes s)
    (ht : engineStep s = .next t) : workLeft t < workLeft s := by
  obtain ⟨q, hq, he⟩ := engineStep_of_decoding hd h
  have hsettle := he.symm.trans ht
  have hbits := settle_bitsLeft hsettle
  obtain ⟨hlzw, -⟩ := settle_lzw hsettle
  have hresult := h.lzw.result
  rw [nextIndex] at hq
  rcases heldIndex_cases s with ⟨hr, -⟩ | ⟨c, hr, -⟩ | ⟨-, hstack, hheld⟩ | ⟨v, rest, -, hstack, hheld⟩
  · rw [hresult] at hr; cases hr
  · rw [hresult] at hr; cases hr
  · rw [hheld] at hq
    have hloop : nextIndexLoop (turnsFor s) s = some q := hq
    rcases nextIndexLoop_bitsLeft h hloop with hlt | ⟨hend, hle⟩
    · have hdepth := nextIndexLoop_depth h hstack hloop
      exact workLeft_lt_of_fewer_bits hbusy (hbits.trans_lt hlt) (by rw [hlzw]; omega)
    · have hempty := nextIndexLoop_stack_of_no_index h hstack hloop (by rcases hend with hr | hr <;> rw [hr] <;> nofun)
      exact workLeft_lt_of_completion hbusy (hend.settle_idle hsettle) (hbits.trans_le hle) (by simp [hlzw, hempty])
  · rw [hheld] at hq
    cases hq
    exact workLeft_lt_of_shorter_stack hbusy hbits.le (by simp [hlzw, hstack])

/-- The ROOT step takes its byte, or completes the frame. -/
theorem rootStep_workLeft {s : State} (hp : s.phase = .root) : workLeft (rootStep s) < workLeft s := by
  have hbusy : s.phase ≠ .idle := hp.trans_ne nofun
  unfold rootStep
  rcases takeByte_cases s with ⟨-, ht⟩ | ⟨b, rest, hin, ht⟩ <;> simp only [ht]
  · exact workLeft_lt_of_completion hbusy rfl (Nat.le_refl _) (Nat.le_refl _)
  · split_ifs
    · exact workLeft_lt_of_fewer_bits hbusy (bitsLeft_lt_of_byte hin (Nat.le_refl _) rfl) (Nat.le_add_right _ _)
    · exact workLeft_lt_of_fewer_bits hbusy (bitsLeft_lt_of_byte hin (Nat.le_refl _) rfl) (Nat.zero_le _)

/-- The DRAIN step takes a sub-block, or completes the frame. -/
theorem drainStep_workLeft {s : State} (hp : s.phase = .drain) : workLeft (drainStep s) < workLeft s := by
  have hbusy : s.phase ≠ .idle := hp.trans_ne nofun
  have hdiscard := bitsLeft_discard_le s
  unfold drainStep
  rcases drainRead_cases (discard s) with ⟨-, he⟩ | ⟨-, ⟨-, he⟩ | ⟨n, data, rest, -, hin, he⟩⟩ <;> rw [he]
  · exact workLeft_lt_of_completion hbusy rfl hdiscard (Nat.le_refl _)
  · exact workLeft_lt_of_completion hbusy rfl ((bitsLeft_tookAll_le (discard s)).trans hdiscard) (Nat.le_refl _)
  · have hrest : rest.length ≤ (data ++ rest).length := by simp
    split_ifs <;>
      exact workLeft_lt_of_fewer_bits hbusy (bitsLeft_lt_of_byte (s := s) hin hrest rfl) (Nat.le_add_right _ _)

/-- Settles O56, phase by phase. -/
theorem everyEngineStepShrinksTheWork : Obligations.EveryEngineStepShrinksTheWork := by
  intro s t hinv hbusy ht
  have hready := readyForCodes_of_engineInv hinv
  cases hp : s.phase with
  | idle => exact absurd hp hbusy
  | root =>
    cases (engineStep_of_root hp).symm.trans ht
    exact rootStep_workLeft hp
  | fill =>
    have hd := (decoding_iff s).mpr (.inl hp)
    exact decodingStep_workLeft hbusy hd (hready hd) ht
  | tail =>
    have hd := (decoding_iff s).mpr (.inr hp)
    exact decodingStep_workLeft hbusy hd (hready hd) ht
  | drain =>
    cases (engineStep_of_drain hp).symm.trans ht
    exact drainStep_workLeft hp

end Sys2Proof.Machine
end
